-- ==== Sys2Proof/Word.lean ====
section
/-! DEFINITION. The word types of the JamMate UART frame decoder and the byte lanes of a 32-bit word.
Bit 0 is the least significant bit (00_scope.md R8); every value is unsigned (R9). -/

namespace Sys2Proof

/-- A byte is 8 bits (00_scope.md R8). -/
abbrev Byte := BitVec 8

/-- A 32-bit register value (10_state.md R40). -/
abbrev Word := BitVec 32

/-- An event counter, CNT_WIDTH = 16 bits (10_state.md R32). -/
abbrev Count := BitVec 16

/-- The 16-bit CRC register (10_state.md R34). -/
abbrev Crc := BitVec 16

/-- Byte lane `k` of a word, `v[8k+7:8k]` (00_scope.md R8). -/
def byteLane (v : Word) (k : Nat) : Byte := v.extractLsb' (8 * k) 8

/-- The word with the given byte lanes, lane 0 in bits 7 to 0: the spec's `{b3,b2,b1,b0}` (00_scope.md R9). -/
def wordOfBytes (b0 b1 b2 b3 : Byte) : Word :=
  b0.zeroExtend 32 ||| b1.zeroExtend 32 <<< 8 ||| b2.zeroExtend 32 <<< 16 ||| b3.zeroExtend 32 <<< 24

/-- The four bytes of a word in wire order, lane 0 first (30_encoding.md R78, 20_memory.md R57). -/
def bytesOfWord (v : Word) : List Byte := [byteLane v 0, byteLane v 1, byteLane v 2, byteLane v 3]

end Sys2Proof
end

