-- ==== Sys2Proof/Config.lean ====
section
/-! DEFINITION. The parameters of 00_scope.md R7: the constants the spec fixes, the tables and their default values
(log 9), the OPEN parameters as opaque constants (log 8), and the free values (log 11, log 12). -/

namespace Sys2Proof.Config

/-- `SYNC` (00_scope.md R7, 30_encoding.md R71). -/
def sync : Byte := 0xAA#8

/-- `MAX_PAYLOAD` (00_scope.md R7). -/
def maxPayload : Nat := 255

/-- `TX_BUF_CAP`, the whole frame (00_scope.md R7). -/
def txBufCap : Nat := 256

/-- The size of tx_stage in bytes (10_state.md R36), which is `TX_MAX_N`. -/
def txStageSize : Nat := 250

/-- `CRC_POLY`, reflected form (00_scope.md R7, 42_crc16.md R160). -/
def crcPoly : Crc := 0xA001#16

/-- `CRC_INIT` (00_scope.md R7, 42_crc16.md R160). -/
def crcInit : Crc := 0xFFFF#16

/-- `PRESET_SIZE` (00_scope.md R7). -/
def presetSize : Nat := 297

/-- `PRESET_MAGIC`, offsets 0 and 1 (00_scope.md R7). -/
def presetMagic0 : Byte := 0x50#8
def presetMagic1 : Byte := 0x4D#8

/-- `PRESET_VERSION` (00_scope.md R7, 44_preset_check.md R202). -/
def presetVersion : Byte := 0x02#8

/-- `PRESET_NUM_EFFECTS` (00_scope.md R7, 90_conflicts.md C5). -/
def presetNumEffects : Nat := 17

/-- The demultiplexer's fixed tables (10_state.md R39): an instance's choice of `TAG_TABLE`, `ALIAS_TABLE`,
`ALIAS_PARAM_OFFSET` and `EXPECTED_LEN` (00_scope.md R7). The handler index of a tag is its position. -/
structure Tables where
  tagTable : List Word
  aliasTable : List (BitVec 16 × Nat)
  aliasParamOffset : Nat
  expectedLen : List (Nat × Nat)
  deriving DecidableEq, Repr

/-- `EXPECTED_LEN[h]`: none where the table has no entry (00_scope.md R7). -/
def Tables.expected (t : Tables) (h : Nat) : Option Nat := t.expectedLen.lookup h

/-- The 18 effect tags of `TAG_TABLE`, handlers 0 to 17 (30_encoding.md R79). -/
def effectTags : List Word :=
  [ 0x45544147#32, 0x504D4F43#32, 0x48415741#32, 0x4452564F#32, 0x54534944#32, 0x4C555145#32
  , 0x4D524148#32, 0x52424956#32, 0x524F4843#32, 0x5654434F#32, 0x474E4C46#32, 0x53414850#32
  , 0x4D455254#32, 0x20524946#32, 0x594C4544#32, 0x204D414E#32, 0x42525652#32, 0x43524E47#32 ]

/-- The 11 system tags of `TAG_TABLE`, handlers 18 to 28 (30_encoding.md R79). -/
def systemTags : List Word :=
  [ 0x204E4547#32, 0x4C495455#32, 0x504F4F4C#32, 0x4D555244#32, 0x5254454D#32, 0x53505942#32
  , 0x4944494D#32, 0x4C514552#32, 0x48534C46#32, 0x44545352#32, 0x53455250#32 ]

/-- The 29 tags of the catalog, at indices 0 to 28 (30_encoding.md R79). -/
def catalogTags : List Word := effectTags ++ systemTags

/-- The tables an instance may have: the catalog's 29 tags and at most two more (30_encoding.md R79, 93_implementation_defined.md I4),
the alias EQ of handler 5 among any others (R80, I5), an alias parameter offset (I6) and expected lengths with OVRD's 13 (R76, I7).
DEDUCED (log 9): every handler is an index of `TAG_TABLE` and the offset fits DEMUX's three bits (10_state.md R46). -/
abbrev Tables.wf (t : Tables) : Prop :=
  t.tagTable.take 29 = catalogTags ∧ t.tagTable.length ≤ 31 ∧ t.aliasTable.lookup 0x5145#16 = some 5 ∧
    (∀ e ∈ t.aliasTable, e.2 < t.tagTable.length) ∧ t.aliasParamOffset < 8 ∧ t.expected 3 = some 13

/-- The default tables (00_scope.md R7; 30_encoding.md R79, R80; 43_tag_demux.md R184). The machine runs with any tables: they are its
state's field `tables`, which starts at these (log 9). -/
def tables : Tables where
  tagTable := catalogTags
  aliasTable := [(0x5145#16, 5)]
  aliasParamOffset := 2
  expectedLen := [(3, 13)]

/-- `WDT_TIMEOUT_RESET` (OPEN, 10_state.md R31, 93_implementation_defined.md I1): no value is known of it (log 8). -/
opaque wdtTimeoutReset : Word

/-- `BASE` divided by 0x400 (OPEN, 20_memory.md R51, 93_implementation_defined.md I3; log 8). -/
opaque baseIndex : Nat

/-- `BASE`, a multiple of 0x400 (20_memory.md R51). -/
def base : Nat := 0x400 * baseIndex

/-- Which storage a free byte stands in (log 11, log 12). -/
inductive FreeSite where
  | asmBuf
  | rdyBuf
  | txFrame
  | beyondTxFrame
  deriving DecidableEq, Repr

/-- The free bytes: what HRST leaves in the three buffers the spec calls unspecified (10_state.md R25, R28, R37; log 11)
and what lies beyond tx_frame (log 12). The second argument is the reset count, the third the index. -/
opaque freeByte : FreeSite → Nat → Nat → Byte

end Sys2Proof.Config
end

