-- ==== Sys2Proof/Syntax.lean ====
section
/-! DEFINITION. The syntax of the block's instruction set: the receive states, the events that outside agents present
(30_encoding.md R90), what a row of the opcode table is matched against, and `Instr`, one constructor for each of the 52
rows of spec/opcode_table.json. -/

namespace Sys2Proof

/-- The three receive states (10_state.md R22); STATUS value 3 has no counterpart (93_implementation_defined.md I15). -/
inductive RxState where
  | waitSync
  | waitLen
  | waitPayload
  deriving DecidableEq, Repr

/-- The line errors a UART receiver reports (40_rx_framer.md R108). -/
inductive LineErr where
  | framing
  | parity
  | overrun
  deriving DecidableEq, Repr

/-- The kind of a host access (20_memory.md R52). -/
inductive AccessKind where
  | read
  | write
  deriving DecidableEq, Repr

/-- The event set (30_encoding.md R90). `rd` and `wr` are host accesses inside the window: the offset from BASE, the
access size in bytes and, for a write, the value. An access that 20_memory.md R52 does not admit is R90's `BUSERR`. -/
inductive Event where
  | rxb (b : Byte)
  | rxe (k : LineErr)
  | tick
  | txpop
  | rd (off : BitVec 10) (size : Nat)
  | wr (off : BitVec 10) (size : Nat) (v : Word)
  | hrst
  deriving DecidableEq, Repr

/-- What a row of the opcode table is matched against (30_encoding.md R94): a payload for the TAG32 and TAG16 formats, an
event for the EVENT, HOST_WR and HOST_RD formats. -/
inductive Code where
  | payload (p : List Byte)
  | event (e : Event)
  deriving DecidableEq, Repr

/-- The instruction set: one constructor for each row of spec/opcode_table.json, in the table's order.
A tag row's `params` are the payload bytes after the tag. A host write's `v` is the written value. -/
inductive Instr where
  | gate (params : List Byte)
  | comp (params : List Byte)
  | awah (params : List Byte)
  | ovrd (params : List Byte)
  | dist (params : List Byte)
  | equl (params : List Byte)
  | harm (params : List Byte)
  | vibr (params : List Byte)
  | chor (params : List Byte)
  | octv (params : List Byte)
  | flng (params : List Byte)
  | phas (params : List Byte)
  | trem (params : List Byte)
  | fir (params : List Byte)
  | dely (params : List Byte)
  | nam (params : List Byte)
  | rvrb (params : List Byte)
  | gnrc (params : List Byte)
  | gen (params : List Byte)
  | util (params : List Byte)
  | loop (params : List Byte)
  | drum (params : List Byte)
  | metr (params : List Byte)
  | byps (params : List Byte)
  | midi (params : List Byte)
  | reql (params : List Byte)
  | flsh (params : List Byte)
  | rstd (params : List Byte)
  | pres (params : List Byte)
  | eq (params : List Byte)
  | rxbWaitSync (b : Byte)
  | rxbWaitLen (b : Byte)
  | rxbWaitPayload (b : Byte)
  | rxe (k : LineErr)
  | tick
  | txpop
  | buserr (kind : AccessKind) (off : BitVec 10) (size : Nat)
  | hrst
  | ctrlwr (v : Word)
  | consume (v : Word)
  | wdtset (v : Word)
  | softrst (v : Word)
  | cntclr (v : Word)
  | crcinit (v : Word)
  | crcfeed (v : Word)
  | txtag (v : Word)
  | txsend (v : Word)
  | txstage (k : BitVec 6) (v : Word)
  | rdreg (w : BitVec 8)
  | crcread
  | demuxread
  | rxread (k : BitVec 6)
  deriving DecidableEq, Repr

end Sys2Proof
end

