-- ==== Sys2Proof/WellFormed.lean ====
section
/-! DEFINITION. Which terms of `Instr` are instructions, and in which receive state a row is selected. -/

namespace Sys2Proof

/-- The longest parameter list after a 4-byte tag: LEN ≤ 255 counts the tag (30_encoding.md R70). -/
def maxTagParams : Nat := 251

/-- The longest parameter list after a 2-byte tag (30_encoding.md R80, 43_tag_demux.md R185). -/
def maxAliasParams : Nat := 253

/-- An `EQ` payload must not be a 4-byte tag of the table: the alias is tried only after the 4-byte miss, so `EQUL` is not
`EQ` (43_tag_demux.md R183). -/
def aliasParamsFree (t : Config.Tables) (params : List Byte) : Bool :=
  match params with
  | c :: d :: _ => !(t.tagTable.contains (wordOfBytes 0x45#8 0x51#8 c d))
  | _ => true

/-- A word index that RDREG keeps: the rows DEMUXREAD (0x018), CRCREAD (0x048) and RXREAD (0x100 to 0x1FC) are narrower
rows of the table and are decoded in its place (30_encoding.md R91, R94; log 6). -/
def rdregKeeps (w : BitVec 8) : Bool :=
  w != 6#8 && w != 18#8 && !(64 ≤ w.toNat && w.toNat < 128)

/-- The operand checks of each row: the parameter list fits a payload, an access is really a bus error, a CMD or
CRC_CTRL write has the row's `data_match` bit (30_encoding.md R91, R94). For EQ it depends on the instance's tables: the payload is no 4-byte tag and reaches
the alias parameters (43_tag_demux.md R180). -/
def Instr.wf (t : Config.Tables) : Instr → Bool
  | .gate params => decide (params.length ≤ maxTagParams)
  | .comp params => decide (params.length ≤ maxTagParams)
  | .awah params => decide (params.length ≤ maxTagParams)
  | .ovrd params => decide (params.length ≤ maxTagParams)
  | .dist params => decide (params.length ≤ maxTagParams)
  | .equl params => decide (params.length ≤ maxTagParams)
  | .harm params => decide (params.length ≤ maxTagParams)
  | .vibr params => decide (params.length ≤ maxTagParams)
  | .chor params => decide (params.length ≤ maxTagParams)
  | .octv params => decide (params.length ≤ maxTagParams)
  | .flng params => decide (params.length ≤ maxTagParams)
  | .phas params => decide (params.length ≤ maxTagParams)
  | .trem params => decide (params.length ≤ maxTagParams)
  | .fir params => decide (params.length ≤ maxTagParams)
  | .dely params => decide (params.length ≤ maxTagParams)
  | .nam params => decide (params.length ≤ maxTagParams)
  | .rvrb params => decide (params.length ≤ maxTagParams)
  | .gnrc params => decide (params.length ≤ maxTagParams)
  | .gen params => decide (params.length ≤ maxTagParams)
  | .util params => decide (params.length ≤ maxTagParams)
  | .loop params => decide (params.length ≤ maxTagParams)
  | .drum params => decide (params.length ≤ maxTagParams)
  | .metr params => decide (params.length ≤ maxTagParams)
  | .byps params => decide (params.length ≤ maxTagParams)
  | .midi params => decide (params.length ≤ maxTagParams)
  | .reql params => decide (params.length ≤ maxTagParams)
  | .flsh params => decide (params.length ≤ maxTagParams)
  | .rstd params => decide (params.length ≤ maxTagParams)
  | .pres params => decide (params.length ≤ maxTagParams)
  | .eq params =>
    decide (params.length ≤ maxAliasParams) && decide (t.aliasParamOffset ≤ 2 + params.length) && aliasParamsFree t params
  | .rxbWaitSync _ => true
  | .rxbWaitLen _ => true
  | .rxbWaitPayload _ => true
  | .rxe _ => true
  | .tick => true
  | .txpop => true
  | .buserr _ off size => size != 4 || off.extractLsb' 0 2 != 0#2
  | .hrst => true
  | .ctrlwr _ => true
  | .consume _ => true
  | .wdtset _ => true
  | .softrst v => v.getLsbD 0
  | .cntclr v => v.getLsbD 1 && !v.getLsbD 0
  | .crcinit v => v.getLsbD 0
  | .crcfeed _ => true
  | .txtag _ => true
  | .txsend _ => true
  | .txstage _ _ => true
  | .rdreg w => rdregKeeps w
  | .crcread => true
  | .demuxread => true
  | .rxread _ => true

/-- Whether the receive state selects the row: only the three RXB rows ask for one (30_encoding.md R90, R94). -/
def Instr.selectedIn (st : RxState) : Instr → Bool
  | .rxbWaitSync _ => st == .waitSync
  | .rxbWaitLen _ => st == .waitLen
  | .rxbWaitPayload _ => st == .waitPayload
  | .gate _ => true
  | .comp _ => true
  | .awah _ => true
  | .ovrd _ => true
  | .dist _ => true
  | .equl _ => true
  | .harm _ => true
  | .vibr _ => true
  | .chor _ => true
  | .octv _ => true
  | .flng _ => true
  | .phas _ => true
  | .trem _ => true
  | .fir _ => true
  | .dely _ => true
  | .nam _ => true
  | .rvrb _ => true
  | .gnrc _ => true
  | .gen _ => true
  | .util _ => true
  | .loop _ => true
  | .drum _ => true
  | .metr _ => true
  | .byps _ => true
  | .midi _ => true
  | .reql _ => true
  | .flsh _ => true
  | .rstd _ => true
  | .pres _ => true
  | .eq _ => true
  | .rxe _ => true
  | .tick => true
  | .txpop => true
  | .buserr _ _ _ => true
  | .hrst => true
  | .ctrlwr _ => true
  | .consume _ => true
  | .wdtset _ => true
  | .softrst _ => true
  | .cntclr _ => true
  | .crcinit _ => true
  | .crcfeed _ => true
  | .txtag _ => true
  | .txsend _ => true
  | .txstage _ _ => true
  | .rdreg _ => true
  | .crcread => true
  | .demuxread => true
  | .rxread _ => true

end Sys2Proof
end

