-- ==== Sys2Proof/Decode.lean ====
section
/-! DEFINITION. Decoding (30_encoding.md R90, R91, R94) and, after it, encoding. A payload is decoded by the TAG32 rows and,
after they all miss, by the TAG16 row; an event is decoded by the EVENT, HOST_WR and HOST_RD rows, with the receive state
choosing among the three RXB rows. -/

namespace Sys2Proof

/-- Why a payload selects no row (43_tag_demux.md R182; 30_encoding.md R72, R81). -/
inductive DecodeError where
  /-- No payload at all: LEN = 0 is illegal (30_encoding.md R81). -/
  | emptyPayload
  /-- More than 255 bytes: no payload (30_encoding.md R72). -/
  | payloadTooLong
  /-- LEN 1 to 3 and no 2-byte tag matches (43_tag_demux.md R181). -/
  | tagShortMiss
  /-- A whole tag that neither table holds (43_tag_demux.md R182). -/
  | tagMiss
  /-- A tag or alias that the instance's tables add to the defaults: it hits, but the opcode table has no row for it
  (30_encoding.md R79, R80). -/
  | tableExtension
  /-- An admitted write that performs no operation: to a read-only register or an unmapped offset (20_memory.md R54), to CMD
  with neither bit set (10_state.md R47), or to CRC_CTRL with bit 0 clear (42_crc16.md R162). It changes nothing (log 7). -/
  | writeWithoutEffect
  deriving DecidableEq, Repr

/-- `tag32` of a payload's first four bytes (30_encoding.md R78). -/
def tag32 : List Byte → Option Word
  | b0 :: b1 :: b2 :: b3 :: _ => some (wordOfBytes b0 b1 b2 b3)
  | _ => none

/-- `tag16` of a payload's first two bytes (30_encoding.md R80). -/
def tag16 : List Byte → Option (BitVec 16)
  | b0 :: b1 :: _ => some (b0.zeroExtend 16 ||| b1.zeroExtend 16 <<< 8)
  | _ => none

/-- A TAG32 row of the opcode table: its `match`, its mask and what it decodes to (30_encoding.md R94). -/
structure TagRow where
  pattern : Word
  mask : Word
  build : List Byte → Instr

/-- The 29 TAG32 rows, in the table's order. -/
def tagRows : List TagRow :=
  [ ⟨0x45544147#32, 0xFFFFFFFF#32, .gate⟩
  , ⟨0x504D4F43#32, 0xFFFFFFFF#32, .comp⟩
  , ⟨0x48415741#32, 0xFFFFFFFF#32, .awah⟩
  , ⟨0x4452564F#32, 0xFFFFFFFF#32, .ovrd⟩
  , ⟨0x54534944#32, 0xFFFFFFFF#32, .dist⟩
  , ⟨0x4C555145#32, 0xFFFFFFFF#32, .equl⟩
  , ⟨0x4D524148#32, 0xFFFFFFFF#32, .harm⟩
  , ⟨0x52424956#32, 0xFFFFFFFF#32, .vibr⟩
  , ⟨0x524F4843#32, 0xFFFFFFFF#32, .chor⟩
  , ⟨0x5654434F#32, 0xFFFFFFFF#32, .octv⟩ ]
  ++
  [ ⟨0x474E4C46#32, 0xFFFFFFFF#32, .flng⟩
  , ⟨0x53414850#32, 0xFFFFFFFF#32, .phas⟩
  , ⟨0x4D455254#32, 0xFFFFFFFF#32, .trem⟩
  , ⟨0x20524946#32, 0xFFFFFFFF#32, .fir⟩
  , ⟨0x594C4544#32, 0xFFFFFFFF#32, .dely⟩
  , ⟨0x204D414E#32, 0xFFFFFFFF#32, .nam⟩
  , ⟨0x42525652#32, 0xFFFFFFFF#32, .rvrb⟩
  , ⟨0x43524E47#32, 0xFFFFFFFF#32, .gnrc⟩
  , ⟨0x204E4547#32, 0xFFFFFFFF#32, .gen⟩
  , ⟨0x4C495455#32, 0xFFFFFFFF#32, .util⟩ ]
  ++
  [ ⟨0x504F4F4C#32, 0xFFFFFFFF#32, .loop⟩
  , ⟨0x4D555244#32, 0xFFFFFFFF#32, .drum⟩
  , ⟨0x5254454D#32, 0xFFFFFFFF#32, .metr⟩
  , ⟨0x53505942#32, 0xFFFFFFFF#32, .byps⟩
  , ⟨0x4944494D#32, 0xFFFFFFFF#32, .midi⟩
  , ⟨0x4C514552#32, 0xFFFFFFFF#32, .reql⟩
  , ⟨0x48534C46#32, 0xFFFFFFFF#32, .flsh⟩
  , ⟨0x44545352#32, 0xFFFFFFFF#32, .rstd⟩
  , ⟨0x53455250#32, 0xFFFFFFFF#32, .pres⟩ ]

/-- The TAG32 row a tag word selects: `tag32 & mask = match` (30_encoding.md R94). -/
def tagRowOf (t : Word) : Option TagRow := tagRows.find? fun r => t &&& r.mask == r.pattern

/-- Decoding a payload under an instance's tables: the 29 rows first, then the other 4-byte tags, then EQ and the other aliases, for
a payload that reaches the alias parameters (43_tag_demux.md R180 to R183). EQ's operand is every byte after the 2-byte tag. -/
def decodePayload (t : Config.Tables) (p : List Byte) : Except DecodeError Instr :=
  if p.length = 0 then .error .emptyPayload
  else if Config.maxPayload < p.length then .error .payloadTooLong
  else
    match (tag32 p).bind tagRowOf with
    | some r => .ok (r.build (p.drop 4))
    | none =>
      if (tag32 p).any t.tagTable.contains then .error .tableExtension
      else if max 2 t.aliasParamOffset ≤ p.length ∧ tag16 p = some 0x5145#16 then .ok (.eq (p.drop 2))
      else if max 2 t.aliasParamOffset ≤ p.length ∧ (tag16 p).any (fun a => (t.aliasTable.lookup a).isSome) then
        .error .tableExtension
      else if p.length < 4 then .error .tagShortMiss
      else .error .tagMiss

/-- A HOST_WR or HOST_RD row: its `match` and mask over the offset, the condition on the written data, and what it decodes
to (30_encoding.md R94). -/
structure HostRow where
  pattern : BitVec 10
  mask : BitVec 10
  dataMatch : Word → Bool
  build : BitVec 10 → Word → Instr

/-- The ten HOST_WR rows. SOFTRST and CNTCLR share CMD: SOFTRST stands first, so a CMD write with both bits set is SOFTRST,
whose meaning then does both (10_state.md R47; log 7). SOFTRST, CNTCLR and CRCINIT have a `data_match`. -/
def hostWriteRows : List HostRow :=
  [ ⟨0x000#10, 0x3FC#10, fun _ => true, fun _ v => .ctrlwr v⟩
  , ⟨0x010#10, 0x3FC#10, fun _ => true, fun _ v => .consume v⟩
  , ⟨0x014#10, 0x3FC#10, fun _ => true, fun _ v => .wdtset v⟩
  , ⟨0x01C#10, 0x3FC#10, fun v => v.getLsbD 0, fun _ v => .softrst v⟩
  , ⟨0x01C#10, 0x3FC#10, fun v => v.getLsbD 1, fun _ v => .cntclr v⟩
  , ⟨0x040#10, 0x3FC#10, fun v => v.getLsbD 0, fun _ v => .crcinit v⟩
  , ⟨0x044#10, 0x3FC#10, fun _ => true, fun _ v => .crcfeed v⟩
  , ⟨0x050#10, 0x3FC#10, fun _ => true, fun _ v => .txtag v⟩
  , ⟨0x054#10, 0x3FC#10, fun _ => true, fun _ v => .txsend v⟩
  , ⟨0x200#10, 0x300#10, fun _ => true, fun off v => .txstage (off.extractLsb' 2 6) v⟩ ]

/-- The four HOST_RD rows. RDREG has mask 0 and stands last, for the reads the narrower rows do not take (log 6). -/
def hostReadRows : List HostRow :=
  [ ⟨0x048#10, 0x3FC#10, fun _ => true, fun _ _ => .crcread⟩
  , ⟨0x018#10, 0x3FC#10, fun _ => true, fun _ _ => .demuxread⟩
  , ⟨0x100#10, 0x300#10, fun _ => true, fun off _ => .rxread (off.extractLsb' 2 6)⟩
  , ⟨0x000#10, 0x000#10, fun _ => true, fun off _ => .rdreg (off.extractLsb' 2 8)⟩ ]

/-- The first row an admitted access selects: `off & mask = match`, and the row's `data_match` (30_encoding.md R94). -/
def hostRowOf (rows : List HostRow) (off : BitVec 10) (v : Word) : Option Instr :=
  (rows.find? fun r => off &&& r.mask == r.pattern && r.dataMatch v).map fun r => r.build off v

/-- Which accesses are admitted: n = 4 and an offset that is a multiple of 4 (20_memory.md R52). -/
def admitted (off : BitVec 10) (size : Nat) : Bool := size == 4 && off.extractLsb' 0 2 == 0#2

/-- Decoding an event in a receive state (30_encoding.md R90, R91). `none` is an admitted write that performs no operation
(`DecodeError.writeWithoutEffect`). -/
def decodeEvent (st : RxState) : Event → Option Instr
  | .rxb b =>
    match st with
    | .waitSync => some (.rxbWaitSync b)
    | .waitLen => some (.rxbWaitLen b)
    | .waitPayload => some (.rxbWaitPayload b)
  | .rxe k => some (.rxe k)
  | .tick => some .tick
  | .txpop => some .txpop
  | .rd off size => if admitted off size then hostRowOf hostReadRows off 0#32 else some (.buserr .read off size)
  | .wr off size v => if admitted off size then hostRowOf hostWriteRows off v else some (.buserr .write off size)
  | .hrst => some .hrst

/-- The decoder, total on payloads and events, rejecting by name. -/
def decode (t : Config.Tables) (st : RxState) : Code → Except DecodeError Instr
  | .payload p => decodePayload t p
  | .event e =>
    match decodeEvent st e with
    | some i => .ok i
    | none => .error .writeWithoutEffect

/-! ### The table's words -/

/-- The `n` bytes of a number, least significant first: the order in which spec/opcode_table.json numbers the bits. -/
def bytesOfNat : Nat → Nat → List Byte
  | 0, _ => []
  | n + 1, w => BitVec.ofNat 8 w :: bytesOfNat n (w / 256)

/-- The event of a HOST_WR or HOST_RD row whose word is the offset `off`. The table's number holds neither the access kind
nor the data, so the kind is the one whose row has that offset and the data is the row's `data_match`, else zero (log 13). -/
def tableAccess (off : BitVec 10) : Event :=
  match hostWriteRows.find? fun r => off &&& r.mask == r.pattern with
  | some r => .wr off 4 (if r.dataMatch 0#32 then 0#32 else 1#32)
  | none => .rd off 4

/-- What a number of spec/opcode_table.json stands for: up to 16 bits whose set bits all lie in 9 to 2 are a HOST row's
offset, any other number is the bytes of a payload (30_encoding.md R94; log 13). -/
def tableCode (nbits w : Nat) : Code :=
  if nbits ≤ 16 ∧ w % 4 = 0 ∧ w < 0x400 then .event (tableAccess (BitVec.ofNat 10 w))
  else .payload (bytesOfNat ((nbits + 7) / 8) w)

/-- The instruction the decoder reads, under the default tables, from a number of spec/opcode_table.json. -/
def decodeTableWord (nbits w : Nat) : Option Instr :=
  match decode Config.tables .waitSync (tableCode nbits w) with
  | .ok i => some i
  | .error _ => none

/-! ### Encoding -/

/-- The offset of word index `w` of the register window. -/
def offOfWord (w : BitVec 8) : BitVec 10 := w.zeroExtend 10 <<< 2

/-- The payload of a 4-byte tag and its parameters, in wire order (30_encoding.md R70, R78). -/
def tagPayload (t : Word) (params : List Byte) : List Byte := bytesOfWord t ++ params

/-- The encoding of an instruction, from the tables of 30_encoding.md R79, R80, R90 and R91. -/
def encode : Instr → Code
  | .gate params => .payload (tagPayload 0x45544147#32 params)
  | .comp params => .payload (tagPayload 0x504D4F43#32 params)
  | .awah params => .payload (tagPayload 0x48415741#32 params)
  | .ovrd params => .payload (tagPayload 0x4452564F#32 params)
  | .dist params => .payload (tagPayload 0x54534944#32 params)
  | .equl params => .payload (tagPayload 0x4C555145#32 params)
  | .harm params => .payload (tagPayload 0x4D524148#32 params)
  | .vibr params => .payload (tagPayload 0x52424956#32 params)
  | .chor params => .payload (tagPayload 0x524F4843#32 params)
  | .octv params => .payload (tagPayload 0x5654434F#32 params)
  | .flng params => .payload (tagPayload 0x474E4C46#32 params)
  | .phas params => .payload (tagPayload 0x53414850#32 params)
  | .trem params => .payload (tagPayload 0x4D455254#32 params)
  | .fir params => .payload (tagPayload 0x20524946#32 params)
  | .dely params => .payload (tagPayload 0x594C4544#32 params)
  | .nam params => .payload (tagPayload 0x204D414E#32 params)
  | .rvrb params => .payload (tagPayload 0x42525652#32 params)
  | .gnrc params => .payload (tagPayload 0x43524E47#32 params)
  | .gen params => .payload (tagPayload 0x204E4547#32 params)
  | .util params => .payload (tagPayload 0x4C495455#32 params)
  | .loop params => .payload (tagPayload 0x504F4F4C#32 params)
  | .drum params => .payload (tagPayload 0x4D555244#32 params)
  | .metr params => .payload (tagPayload 0x5254454D#32 params)
  | .byps params => .payload (tagPayload 0x53505942#32 params)
  | .midi params => .payload (tagPayload 0x4944494D#32 params)
  | .reql params => .payload (tagPayload 0x4C514552#32 params)
  | .flsh params => .payload (tagPayload 0x48534C46#32 params)
  | .rstd params => .payload (tagPayload 0x44545352#32 params)
  | .pres params => .payload (tagPayload 0x53455250#32 params)
  | .eq params => .payload (0x45#8 :: 0x51#8 :: params)
  | .rxbWaitSync b => .event (.rxb b)
  | .rxbWaitLen b => .event (.rxb b)
  | .rxbWaitPayload b => .event (.rxb b)
  | .rxe k => .event (.rxe k)
  | .tick => .event .tick
  | .txpop => .event .txpop
  | .buserr .read off size => .event (.rd off size)
  | .buserr .write off size => .event (.wr off size 0#32)
  | .hrst => .event .hrst
  | .ctrlwr v => .event (.wr 0x000#10 4 v)
  | .consume v => .event (.wr 0x010#10 4 v)
  | .wdtset v => .event (.wr 0x014#10 4 v)
  | .softrst v => .event (.wr 0x01C#10 4 v)
  | .cntclr v => .event (.wr 0x01C#10 4 v)
  | .crcinit v => .event (.wr 0x040#10 4 v)
  | .crcfeed v => .event (.wr 0x044#10 4 v)
  | .txtag v => .event (.wr 0x050#10 4 v)
  | .txsend v => .event (.wr 0x054#10 4 v)
  | .txstage k v => .event (.wr (0x200#10 ||| offOfWord (k.zeroExtend 8)) 4 v)
  | .rdreg w => .event (.rd (offOfWord w) 4)
  | .crcread => .event (.rd 0x048#10 4)
  | .demuxread => .event (.rd 0x018#10 4)
  | .rxread k => .event (.rd (0x100#10 ||| offOfWord (k.zeroExtend 8)) 4)

end Sys2Proof
end

