-- ==== Sys2Proof/Machine/State.lean ====
section
/-! DEFINITION. The state of the block (10_state.md), the state after reset (70_reset_and_hazards.md R260), and the reasons a
step can stop. Every element of 10_state.md is a field under the spec's name in camel case. `inbox`, `out`, `freeCtr`
and `tables` are the model's own (log 1, log 2, log 11, log 9). -/

namespace Sys2Proof.Machine

/-- Why the machine stops with a fault: never. No error event is fatal and none stops the block (60_exceptions.md R222;
93_implementation_defined.md section 1), so there is no constructor (log 18). -/
inductive Fault where
  deriving DecidableEq, Repr

/-- Why a step has no meaning to give. -/
inductive Refusal where
  /-- An instruction with no meaning yet. Raised by no arm of `exec`. Safe: the run stops. -/
  | notModelled (mnemonic : String)
  /-- TXPOP while tx_busy = 0. Raised by `execTxpop`. 41_tx_framer.md R146: a model must refuse it (log 5). Safe. -/
  | txpopWithoutFrame
  /-- An RXB row's meaning applied outside the receive state that selects the row. Raised by the three RXB meanings and
  never by `step`, which picks the row by the state (log 4). Safe. -/
  | rowNotSelected
  deriving DecidableEq, Repr

/-- What one step handed to an outside agent (log 2). -/
inductive Output where
  /-- Nothing. -/
  | silent
  /-- The host's write was performed (20_memory.md R52). -/
  | writeOk
  /-- The host's read returned this value (20_memory.md R52). -/
  | readData (v : Word)
  /-- The host got an error response; a read's data (20_memory.md R53). -/
  | busError (rdata : Option Word)
  /-- The byte the UART transmitter took (41_tx_framer.md R145). -/
  | txByte (b : Byte)
  deriving DecidableEq, Repr

/-- The eight event counters (10_state.md R32). -/
structure Counters where
  lineErr : Count := 0#16
  lenErr : Count := 0#16
  rxDrop : Count := 0#16
  wdt : Count := 0#16
  pkt : Count := 0#16
  tagMiss : Count := 0#16
  txDrop : Count := 0#16
  txRej : Count := 0#16
  deriving DecidableEq, Repr

/-- The architectural state (10_state.md R22 to R37) and the model's four own fields. `tables` is the instance's
configuration, carried here so that the step can be stated for every instance; no event writes it (10_state.md R39; log 9). -/
structure State where
  rxState : RxState
  rxLen : BitVec 8
  rxCnt : BitVec 8
  asmBuf : Vector Byte 255
  rdy : Bool
  rdyLen : BitVec 8
  rdyBuf : Vector Byte 255
  idle : Word
  wdtEn : Bool
  irqEn : Bool
  wdtTimeout : Word
  cnt : Counters
  lastErr : BitVec 4
  crc : Crc
  txTag : Word
  txStage : Vector Byte 250
  txBusy : Bool
  txFrame : Vector Byte 256
  txTotal : BitVec 9
  txIdx : BitVec 9
  inbox : List Event
  out : Output
  freeCtr : Nat
  tables : Config.Tables
  deriving DecidableEq, Repr

/-- The block right after reset (70_reset_and_hazards.md R260; 10_state.md section 7), with no event presented.
asmBuf, rdyBuf and txFrame: the spec gives no value; zero is a DESIGN CHOICE (log 10). freeCtr: DESIGN CHOICE (log 11). -/
def State.reset : State where
  rxState := .waitSync
  rxLen := 0#8
  rxCnt := 0#8
  asmBuf := Vector.replicate 255 0#8
  rdy := false
  rdyLen := 0#8
  rdyBuf := Vector.replicate 255 0#8
  idle := 0#32
  wdtEn := false
  irqEn := false
  wdtTimeout := Config.wdtTimeoutReset
  cnt := {}
  lastErr := 0#4
  crc := Config.crcInit
  txTag := 0#32
  txStage := Vector.replicate 250 0#8
  txBusy := false
  txFrame := Vector.replicate 256 0#8
  txTotal := 0#9
  txIdx := 0#9
  inbox := []
  out := .silent
  freeCtr := 0
  tables := Config.tables

end Sys2Proof.Machine
end

