-- ==== Sys2Proof/Machine/Flags.lean ====
section
/-! DEFINITION. The flags and derived outputs (10_state.md R38), the codes of error events (60_exceptions.md R220), and the two
counting operations of 00_scope.md R9. The block has no arithmetic condition codes. -/

namespace Sys2Proof.Machine

/-- `inc_16` (00_scope.md R9, 40_rx_framer.md R115): wraps modulo 2^16. -/
def inc16 (c : Count) : Count := c + 1#16

/-- `sat_32` (00_scope.md R9): saturates at 0xFFFFFFFF. -/
def sat32 (c : Word) : Word := if c = 0xFFFFFFFF#32 then c else c + 1#32

/-- The error events (60_exceptions.md R220). Codes 11 to 15 have none (93_implementation_defined.md I16). -/
inductive ErrEvent where
  | lineError (k : LineErr)
  | badLen
  | rxDrop
  | wdtTimeout
  | tagMiss
  | txDrop
  | txReject
  | busError
  deriving DecidableEq, Repr

/-- The code an error event writes to last_err (60_exceptions.md R220). -/
def ErrEvent.code : ErrEvent → BitVec 4
  | .lineError .framing => 1#4
  | .lineError .parity => 2#4
  | .lineError .overrun => 3#4
  | .badLen => 4#4
  | .rxDrop => 5#4
  | .wdtTimeout => 6#4
  | .tagMiss => 7#4
  | .txDrop => 8#4
  | .txReject => 9#4
  | .busError => 10#4

/-- The counter an error event increments (60_exceptions.md R220); a bus error increments none. -/
def Counters.count (e : ErrEvent) (c : Counters) : Counters :=
  match e with
  | .lineError _ => { c with lineErr := inc16 c.lineErr }
  | .badLen => { c with lenErr := inc16 c.lenErr }
  | .rxDrop => { c with rxDrop := inc16 c.rxDrop }
  | .wdtTimeout => { c with wdt := inc16 c.wdt }
  | .tagMiss => { c with tagMiss := inc16 c.tagMiss }
  | .txDrop => { c with txDrop := inc16 c.txDrop }
  | .txReject => { c with txRej := inc16 c.txRej }
  | .busError => c

/-- `irq = irq_en & rdy`, level-sensitive (60_exceptions.md R228, 10_state.md R38). -/
def State.irq (s : State) : Bool := s.irqEn && s.rdy

/-- `tx_valid = tx_busy` (10_state.md R38, 41_tx_framer.md R140). -/
def State.txValid (s : State) : Bool := s.txBusy

/-- The code of a receive state in STATUS (10_state.md R22). -/
def rxStateCode : RxState → BitVec 2
  | .waitSync => 0#2
  | .waitLen => 1#2
  | .waitPayload => 2#2

end Sys2Proof.Machine
end

