-- ==== Sys2Proof/Machine/Operands.lean ====
section
/-! DEFINITION. The operand forms: byte buffers read and written by index, the payload of the ready packet, and the fields of a
written value. -/

namespace Sys2Proof.Machine

/-- A buffer with its first bytes replaced: `for i in 0 .. |p|-1: buf[i] <- p[i]`. Bytes past the buffer's end are dropped; no
rule writes one (log 12). -/
def overlay {n : Nat} (p : List Byte) (buf : Vector Byte n) : Vector Byte n :=
  ⟨((p ++ buf.toList.drop p.length).take n).toArray, by simp; omega⟩

/-- The first `k` bytes of a buffer. -/
def firstBytes {n : Nat} (buf : Vector Byte n) (k : Nat) : List Byte := buf.toList.take k

/-- A byte of a buffer, or 0x00 past its end: how the register windows mask (10_state.md R48, R49). -/
def byteAt {n : Nat} (buf : Vector Byte n) (i : Nat) : Byte := buf.toList.getD i 0#8

/-- The payload of the ready packet, `rdy_buf[0 .. rdy_len - 1]` (10_state.md R27, R28). -/
def State.readyPayload (s : State) : List Byte := firstBytes s.rdyBuf s.rdyLen.toNat

/-- `b(i)` of 10_state.md R48: a payload byte, masked to 0x00 unless a packet is ready and has that byte. -/
def State.rxByte (s : State) (i : Nat) : Byte :=
  if s.rdy = true ∧ i < s.rdyLen.toNat then byteAt s.rdyBuf i else 0#8

/-- `c(i)` of 10_state.md R49: a staged byte, 0 from index 250 on. -/
def State.stageByte (s : State) (i : Nat) : Byte := byteAt s.txStage i

/-- `tx_stage` with word `k` written: `tx_stage[4k+j] <- v[8j+7:8j]` for each j with 4k + j < 250 (10_state.md R49). -/
def stageWord (stage : Vector Byte 250) (k : Nat) (v : Word) : Vector Byte 250 :=
  let s0 := stage.setIfInBounds (4 * k) (byteLane v 0)
  let s1 := s0.setIfInBounds (4 * k + 1) (byteLane v 1)
  let s2 := s1.setIfInBounds (4 * k + 2) (byteLane v 2)
  s2.setIfInBounds (4 * k + 3) (byteLane v 3)

/-- The parameter count of a send request, `n = v[7:0]` (41_tx_framer.md R142). -/
def sendCount (v : Word) : Nat := (byteLane v 0).toNat

/-- The frame image of `n` parameter bytes: SYNC, LEN = 4 + n, the tag's bytes, the staged bytes (41_tx_framer.md R142, R144;
30_encoding.md R70). -/
def State.frameImage (s : State) (n : Nat) : List Byte :=
  Config.sync :: BitVec.ofNat 8 (4 + n) :: (bytesOfWord s.txTag ++ firstBytes s.txStage n)

/-- `tx_byte = tx_frame[tx_idx]` when tx_busy = 1 (10_state.md R38). DESIGN CHOICE (log 23): while tx_busy = 0 it is a stale byte of the
last frame, or a free byte where a fully sent 256-byte frame has left tx_idx = 256; nothing reads it then, because TXPOP is refused.
While tx_busy = 1 no reachable state has tx_idx of 256 or more (log 12). -/
def State.txByte (s : State) : Byte :=
  s.txFrame.toList.getD s.txIdx.toNat (Config.freeByte .beyondTxFrame s.freeCtr s.txIdx.toNat)

/-- The bytes of a frame that carries a payload of 1 to 255 bytes, `AA LEN payload` (30_encoding.md R70). DESIGN CHOICE (log 12): for
another payload, which no frame carries, LEN is the length modulo 256. -/
def frameOf (p : List Byte) : List Byte := Config.sync :: BitVec.ofNat 8 p.length :: p

end Sys2Proof.Machine
end

