-- ==== Sys2Proof/Machine/Demux.lean ====
section
/-! DEFINITION. The command-tag demultiplexer (43_tag_demux.md R180 to R185), a pure function of a payload and the tables, and the
DEMUX register view of the ready packet. -/

namespace Sys2Proof.Machine

/-- The length check's verdict (43_tag_demux.md R184); codes NONE 0, OK 1, SHORT 2, LONG 3 (R185). -/
inductive LenChk where
  | none
  | ok
  | short
  | long
  deriving DecidableEq, Repr

/-- The two-bit code of a verdict in DEMUX (10_state.md R46). -/
def LenChk.code : LenChk → BitVec 2
  | .none => 0#2
  | .ok => 1#2
  | .short => 2#2
  | .long => 3#2

/-- The demultiplexer's output record (43_tag_demux.md R180). -/
structure DemuxResult where
  hit : Bool
  aliasHit : Bool
  tagShort : Bool
  handler : Nat
  paramOff : Nat
  paramLen : Nat
  lenChk : LenChk
  deriving DecidableEq, Repr

/-- HANDLER on a miss, NONE (30_encoding.md R81, 43_tag_demux.md R182). -/
def noHandler : Nat := 31

/-- The length check of a hit (43_tag_demux.md R184). -/
def lenCheck (expected : Option Nat) (plen : Nat) : LenChk :=
  match expected with
  | none => .none
  | some e => if plen = e then .ok else if plen < e then .short else .long

/-- `found(h, al, off)` for a payload of `len` bytes (43_tag_demux.md R180). -/
def demuxFound (t : Config.Tables) (len h : Nat) (al : Bool) (off : Nat) : DemuxResult where
  hit := true
  aliasHit := al
  tagShort := len < 4
  handler := h
  paramOff := off
  paramLen := len - off
  lenChk := lenCheck (t.expected h) (len - off)

/-- The miss of a payload of `len` bytes (43_tag_demux.md R182). -/
def demuxMiss (len : Nat) : DemuxResult where
  hit := false
  aliasHit := false
  tagShort := len < 4
  handler := noHandler
  paramOff := 4
  paramLen := len - 4
  lenChk := .none

/-- The handler of a 4-byte tag: the first index of `TAG_TABLE` that holds it (43_tag_demux.md R180, R183). -/
def tagHandler (t : Config.Tables) (p : List Byte) : Option Nat :=
  (tag32 p).bind fun w => t.tagTable.findIdx? (· == w)

/-- The handler of a 2-byte tag: the first entry of `ALIAS_TABLE` that holds it, for a payload long enough to hold the tag and
reach the parameters (43_tag_demux.md R180). -/
def aliasHandler (t : Config.Tables) (p : List Byte) : Option Nat :=
  if max 2 t.aliasParamOffset ≤ p.length then (tag16 p).bind fun w => t.aliasTable.lookup w else none

/-- `demux(buf, len)` (43_tag_demux.md R180): the 4-byte tags, then the aliases, then a miss. The rule's domain is 1 to 255 bytes
(R187). DESIGN CHOICE (log 22): outside it the function still answers, a miss for no bytes and the same scheme for more than 255; no
reachable state has such a ready packet. -/
def demux (t : Config.Tables) (p : List Byte) : DemuxResult :=
  match tagHandler t p with
  | some h => demuxFound t p.length h false 4
  | none =>
    match aliasHandler t p with
    | some h => demuxFound t p.length h true t.aliasParamOffset
    | none => demuxMiss p.length

/-- The packed DEMUX value of a result (43_tag_demux.md R185, 10_state.md R46). DESIGN CHOICE (log 9): a handler or an offset that does not
fit its bits, which only tables outside `Config.Tables.wf` give, is cut to them, and so is a length beyond 255 (log 22). -/
def demuxWord (d : DemuxResult) : Word :=
  1#32
    ||| (BitVec.ofBool d.hit).zeroExtend 32 <<< 1
    ||| (BitVec.ofBool d.aliasHit).zeroExtend 32 <<< 2
    ||| (BitVec.ofBool d.tagShort).zeroExtend 32 <<< 3
    ||| (BitVec.ofNat 5 d.handler).zeroExtend 32 <<< 8
    ||| (BitVec.ofNat 8 d.paramLen).zeroExtend 32 <<< 16
    ||| d.lenChk.code.zeroExtend 32 <<< 24
    ||| (BitVec.ofNat 3 d.paramOff).zeroExtend 32 <<< 28

/-- `demux_out`, the result for the ready packet when rdy = 1 (10_state.md R38). DESIGN CHOICE (log 23): while no packet is ready it
is the result for the stale bytes, which nothing reads: `demuxReg` masks it. -/
def State.demuxOut (s : State) : DemuxResult := demux s.tables s.readyPayload

/-- What DEMUX reads (43_tag_demux.md R185): 0x00001F00 while no packet is ready. -/
def State.demuxReg (s : State) : Word := if s.rdy then demuxWord s.demuxOut else 0x00001F00#32

end Sys2Proof.Machine
end

