-- ==== Sys2Proof/Machine/Registers.lean ====
section
/-! DEFINITION. What each register of the window reads (10_state.md R40 to R49; 20_memory.md R54). A read is a function of the
state and changes nothing (20_memory.md R55). -/

namespace Sys2Proof.Machine

/-- CTRL: WDT_EN in bit 0, IRQ_EN in bit 1 (10_state.md R41). -/
def State.ctrlReg (s : State) : Word :=
  (BitVec.ofBool s.wdtEn).zeroExtend 32 ||| (BitVec.ofBool s.irqEn).zeroExtend 32 <<< 1

/-- STATUS: RX_STATE [1:0], PKT_READY [2], TX_BUSY [3], IRQ [4], RX_CNT [15:8], RX_LEN [23:16] (10_state.md R42). -/
def State.statusReg (s : State) : Word :=
  (rxStateCode s.rxState).zeroExtend 32
    ||| (BitVec.ofBool s.rdy).zeroExtend 32 <<< 2
    ||| (BitVec.ofBool s.txBusy).zeroExtend 32 <<< 3
    ||| (BitVec.ofBool s.irq).zeroExtend 32 <<< 4
    ||| s.rxCnt.zeroExtend 32 <<< 8
    ||| s.rxLen.zeroExtend 32 <<< 16

/-- RDY_LEN: rdy_len while a packet is ready, else 0 (10_state.md R44). -/
def State.rdyLenReg (s : State) : Word := if s.rdy then s.rdyLen.zeroExtend 32 else 0#32

/-- CRC_VALUE: `zext_32(crc)` (42_crc16.md R164). -/
def State.crcReg (s : State) : Word := s.crc.zeroExtend 32

/-- RX_BUF[k] (10_state.md R48). -/
def State.rxBufReg (s : State) (k : Nat) : Word :=
  wordOfBytes (s.rxByte (4 * k)) (s.rxByte (4 * k + 1)) (s.rxByte (4 * k + 2)) (s.rxByte (4 * k + 3))

/-- TX_STAGE[k] (10_state.md R49). -/
def State.txStageReg (s : State) (k : Nat) : Word :=
  wordOfBytes (s.stageByte (4 * k)) (s.stageByte (4 * k + 1)) (s.stageByte (4 * k + 2)) (s.stageByte (4 * k + 3))

/-- `reg_read` by word index, offset 4w (10_state.md R40). Write-only registers (RX_ACK, CMD, CRC_CTRL, CRC_DATA, TX_SEND) and
unmapped offsets read 0 (20_memory.md R54). -/
def State.regRead (s : State) (w : BitVec 8) : Word :=
  match w.toNat with
  | 0 => s.ctrlReg
  | 1 => s.statusReg
  | 2 => s.lastErr.zeroExtend 32
  | 3 => s.rdyLenReg
  | 4 => 0#32
  | 5 => s.wdtTimeout
  | 6 => s.demuxReg
  | 7 => 0#32
  | 8 => s.cnt.lineErr.zeroExtend 32
  | 9 => s.cnt.lenErr.zeroExtend 32
  | 10 => s.cnt.rxDrop.zeroExtend 32
  | 11 => s.cnt.wdt.zeroExtend 32
  | 12 => s.cnt.pkt.zeroExtend 32
  | 13 => s.cnt.tagMiss.zeroExtend 32
  | 14 => s.cnt.txDrop.zeroExtend 32
  | 15 => s.cnt.txRej.zeroExtend 32
  | 16 => 0#32
  | 17 => 0#32
  | 18 => s.crcReg
  | 19 => s.idle
  | 20 => s.txTag
  | 21 => 0#32
  | n =>
    if 64 ≤ n ∧ n < 128 then s.rxBufReg (n - 64)
    else if 128 ≤ n ∧ n < 192 then s.txStageReg (n - 128)
    else 0#32

end Sys2Proof.Machine
end

