-- ==== Sys2Proof/Machine/Ops.lean ====
section
/-! DEFINITION. The shared operations: recording an error event and the recovery from one, the hand-off of a completed payload, the
send request, the receive force-reset, the counter clear, hardware reset, and the bus side. -/

namespace Sys2Proof.Machine

/-- `raise` (00_scope.md R12): the event's code goes to last_err and its counter is incremented (60_exceptions.md R220). The
block's one analogue of taking an exception: it saves nothing and switches no mode (R224), and nothing returns from it (R225). -/
def State.raise (s : State) (e : ErrEvent) : State := { s with lastErr := e.code, cnt := s.cnt.count e }

/-- `goto_sync()` (40_rx_framer.md R100), the recovery of every receive error (60_exceptions.md R224). -/
def State.gotoSync (s : State) : State := { s with rxState := .waitSync, rxLen := 0#8, rxCnt := 0#8 }

/-- What every receive event does first: `idle <- 0` (40_rx_framer.md R101). -/
def State.clearIdle (s : State) : State := { s with idle := 0#32 }

/-- What the step answers to an outside agent (log 2). -/
def State.respond (s : State) (o : Output) : State := { s with out := o }

/-- The install half of `complete()` (40_rx_framer.md R106): the payload becomes the ready packet. -/
def State.install (s : State) (p : List Byte) : State :=
  { s with
    rdyBuf := overlay p s.rdyBuf
    rdyLen := BitVec.ofNat 8 p.length
    rdy := true
    cnt := { s.cnt with pkt := inc16 s.cnt.pkt } }

/-- The ready packet's tag is looked up once, when it is installed; a miss is counted (40_rx_framer.md R106). -/
def State.noteTagMiss (s : State) : State := if s.demuxOut.hit then s else s.raise .tagMiss

/-- `complete()` for the completed payload `p` (40_rx_framer.md R106): dropped while a packet is ready, else installed; then the
framer hunts again. -/
def State.complete (s : State) (p : List Byte) : State :=
  (if s.rdy then s.raise .rxDrop else (s.install p).noteTagMiss).gotoSync

/-- The arrival of the last byte of the payload `p`, as the payload's tag row sees it: idle is cleared (40_rx_framer.md R101), the
assembly buffer holds the payload, and `complete()` hands it over (log 3). -/
def State.receivePayload (s : State) (p : List Byte) : State :=
  { s.clearIdle with asmBuf := overlay p s.asmBuf }.complete p

/-- `wdt_check()` (40_rx_framer.md R121). -/
def State.wdtCheck (s : State) : State :=
  if s.wdtEn = true ∧ s.rxState ≠ .waitSync ∧ s.wdtTimeout < s.idle then (s.raise .wdtTimeout).gotoSync else s

/-- The receive force-reset, CMD.SOFT_RST (40_rx_framer.md R113). -/
def State.softReset (s : State) : State := s.gotoSync.clearIdle

/-- The counter clear, CMD.CNT_CLR (40_rx_framer.md R114). -/
def State.clearCounters (s : State) : State := { s with cnt := {}, lastErr := 0#4 }

/-- A write to CMD: each set bit's operation, SOFT_RST first (10_state.md R47). -/
def State.writeCmd (s : State) (v : Word) : State :=
  let s1 := if v.getLsbD 0 then s.softReset else s
  if v.getLsbD 1 then s1.clearCounters else s1

/-- A write to TX_SEND (41_tx_framer.md R142): dropped while a frame is in flight, rejected over 256 bytes, else accepted. -/
def State.send (s : State) (v : Word) : State :=
  let n := sendCount v
  if s.txBusy then s.raise .txDrop
  else if Config.txBufCap < 6 + n then s.raise .txReject
  else
    { s with
      txFrame := overlay (s.frameImage n) s.txFrame
      txTotal := BitVec.ofNat 9 (6 + n)
      txIdx := 0#9
      txBusy := true }

/-- `n` free bytes for a buffer that hardware reset leaves unspecified (log 11). -/
def freeBytes (site : Config.FreeSite) (ctr n : Nat) : Vector Byte n :=
  ⟨((List.range n).map (Config.freeByte site ctr)).toArray, by simp⟩

/-- Hardware reset (70_reset_and_hazards.md R260): every element takes its reset value. The three unspecified buffers take free
values, fresh at each reset (log 11). The events not yet taken are the outside world's and stay, and so do the instance's tables (10_state.md R39). -/
def State.hardReset (s : State) : State :=
  { State.reset with
    asmBuf := freeBytes .asmBuf s.freeCtr 255
    rdyBuf := freeBytes .rdyBuf s.freeCtr 255
    txFrame := freeBytes .txFrame s.freeCtr 256
    inbox := s.inbox
    out := s.out
    freeCtr := s.freeCtr + 1
    tables := s.tables }

/-! ### The outside world -/

/-- A host access by address: the event it presents, when the address lies in the window (00_scope.md R11, 20_memory.md R50 to
R52). An access elsewhere does not reach the block (log 17). -/
def busAccess (addr size : Nat) (kind : AccessKind) (v : Word) : Option Event :=
  if Config.base ≤ addr ∧ addr < Config.base + 0x400 then
    let off := BitVec.ofNat 10 (addr - Config.base)
    match kind with
    | .read => some (.rd off size)
    | .write => some (.wr off size v)
  else none

/-- A host access of a cycle (30_encoding.md R90). -/
inductive HostAccess where
  | rd (off : BitVec 10) (size : Nat)
  | wr (off : BitVec 10) (size : Nat) (v : Word)
  deriving DecidableEq, Repr

/-- The event a host access is. -/
def HostAccess.event : HostAccess → Event
  | .rd off size => .rd off size
  | .wr off size v => .wr off size v

/-- A receive event of a cycle (30_encoding.md R90). -/
inductive RxEvent where
  | byte (b : Byte)
  | error (k : LineErr)
  deriving DecidableEq, Repr

/-- The event a receive event is. -/
def RxEvent.event : RxEvent → Event
  | .byte b => .rxb b
  | .error k => .rxe k

/-- The events presented in one clock cycle (60_exceptions.md R231, R232): at most one of each agent. -/
structure Cycle where
  hrst : Bool := false
  host : Option HostAccess := none
  rx : Option RxEvent := none
  txpop : Bool := false
  tick : Bool := false
  deriving DecidableEq, Repr

/-- The order in which a cycle's events take effect (60_exceptions.md R232): HRST alone, else the host access, the receive event,
TXPOP, TICK. -/
def Cycle.events (c : Cycle) : List Event :=
  if c.hrst then [.hrst]
  else
    (c.host.map HostAccess.event).toList ++ (c.rx.map RxEvent.event).toList
      ++ (if c.txpop then [.txpop] else []) ++ (if c.tick then [.tick] else [])

/-- The outside agents present a cycle's events after the ones already waiting (log 15). -/
def State.present (s : State) (c : Cycle) : State := { s with inbox := s.inbox ++ c.events }

end Sys2Proof.Machine
end

