-- ==== Sys2Proof/Machine/Crc.lean ====
section
/-! DEFINITION. The CRC-16 generator: the pure functions of 42_crc16.md R161 and the meanings of CRCINIT (R162), CRCFEED (R163) and
CRCREAD (R164). -/

namespace Sys2Proof.Machine

/-- One of the eight shifts of a CRC step (42_crc16.md R161). -/
def crcShift (c : Crc) : Crc := if c.getLsbD 0 then (c >>> 1) ^^^ Config.crcPoly else c >>> 1

/-- `crc_step(c, b)` (42_crc16.md R161). -/
def crcStep (c : Crc) (b : Byte) : Crc := (crcShift^[8]) (c ^^^ b.zeroExtend 16)

/-- `crc16(bytes)` (42_crc16.md R161). -/
def crc16 (bytes : List Byte) : Crc := bytes.foldl crcStep Config.crcInit

/-- CRCINIT, a write to CRC_CTRL: only bit 0 matters (42_crc16.md R162). -/
def execCrcinit (v : Word) (s : State) : Host.Outcome State Fault Refusal :=
  .next ((if v.getLsbD 0 then { s with crc := Config.crcInit } else s).respond .writeOk)

/-- CRCFEED, a write to CRC_DATA: the low byte is fed (42_crc16.md R163). -/
def execCrcfeed (v : Word) (s : State) : Host.Outcome State Fault Refusal :=
  .next ({ s with crc := crcStep s.crc (byteLane v 0) }.respond .writeOk)

/-- CRCREAD, a read of CRC_VALUE (42_crc16.md R164). -/
def execCrcread (s : State) : Host.Outcome State Fault Refusal := .next (s.respond (.readData s.crcReg))

end Sys2Proof.Machine
end

