-- ==== Sys2Proof/Machine/HostOps.lean ====
section
/-! DEFINITION. The meanings of the host's operations on the control and receive side: CTRLWR (10_state.md R41), CONSUME, WDTSET, SOFTRST
and CNTCLR (40_rx_framer.md R110, R112 to R114), the reads RDREG (20_memory.md R52), DEMUXREAD (43_tag_demux.md R185) and RXREAD
(10_state.md R48), and a bus error (20_memory.md R53). -/

namespace Sys2Proof.Machine

/-- CTRLWR, a write to CTRL; it does not clear idle (10_state.md R41). -/
def execCtrlwr (v : Word) (s : State) : Host.Outcome State Fault Refusal :=
  .next ({ s with wdtEn := v.getLsbD 0, irqEn := v.getLsbD 1 }.respond .writeOk)

/-- CONSUME, a write of any value to RX_ACK (40_rx_framer.md R110). -/
def execConsume (_v : Word) (s : State) : Host.Outcome State Fault Refusal := .next ({ s with rdy := false }.respond .writeOk)

/-- WDTSET, a write to WDT_TIMEOUT; it does not touch idle (40_rx_framer.md R112). -/
def execWdtset (v : Word) (s : State) : Host.Outcome State Fault Refusal := .next ({ s with wdtTimeout := v }.respond .writeOk)

/-- SOFTRST, a write to CMD with bit 0 set; bit 1 adds CNTCLR after it (40_rx_framer.md R113, 10_state.md R47). -/
def execSoftrst (v : Word) (s : State) : Host.Outcome State Fault Refusal := .next ((s.writeCmd v).respond .writeOk)

/-- CNTCLR, a write to CMD with bit 1 set (40_rx_framer.md R114, 10_state.md R47). -/
def execCntclr (v : Word) (s : State) : Host.Outcome State Fault Refusal := .next ((s.writeCmd v).respond .writeOk)

/-- RDREG, the read of any word offset (20_memory.md R52, R54). -/
def execRdreg (w : BitVec 8) (s : State) : Host.Outcome State Fault Refusal := .next (s.respond (.readData (s.regRead w)))

/-- DEMUXREAD, a read of DEMUX (43_tag_demux.md R185). -/
def execDemuxread (s : State) : Host.Outcome State Fault Refusal := .next (s.respond (.readData s.demuxReg))

/-- RXREAD, a read of RX_BUF[k] (10_state.md R48). -/
def execRxread (k : BitVec 6) (s : State) : Host.Outcome State Fault Refusal :=
  .next (s.respond (.readData (s.rxBufReg k.toNat)))

/-- What a bus error answers: an error response, and 0 as a read's data (20_memory.md R53). -/
def busErrorResponse : AccessKind → Output
  | .read => .busError (some 0#32)
  | .write => .busError none

/-- BUSERR: the access is not performed; only last_err changes (20_memory.md R53). -/
def execBuserr (kind : AccessKind) (_off : BitVec 10) (_size : Nat) (s : State) : Host.Outcome State Fault Refusal :=
  .next ((s.raise .busError).respond (busErrorResponse kind))

end Sys2Proof.Machine
end

