-- ==== Sys2Proof/Machine/Reset.lean ====
section
/-! DEFINITION. The meaning of HRST, hardware reset (70_reset_and_hazards.md R260). -/

namespace Sys2Proof.Machine

/-- HRST (70_reset_and_hazards.md R260). -/
def execHrst (s : State) : Host.Outcome State Fault Refusal := .next s.hardReset

end Sys2Proof.Machine
end

