-- ==== Sys2Proof/Machine/Rx.lean ====
section
/-! DEFINITION. The meanings of the receive events: RXB in each receive state (40_rx_framer.md R102 to R106) and RXE (R108). -/

namespace Sys2Proof.Machine

/-- RXB in WAIT_SYNC: SYNC starts a frame, any other byte is discarded (40_rx_framer.md R102). -/
def execRxbWaitSync (b : Byte) (s : State) : Host.Outcome State Fault Refusal :=
  if s.rxState = .waitSync then
    .next (if b = Config.sync then { s.clearIdle with rxState := .waitLen } else s.clearIdle)
  else .refused .rowNotSelected

/-- RXB in WAIT_LEN: 0 is rejected and counted, 1 to 255 start the payload (40_rx_framer.md R103). -/
def execRxbWaitLen (b : Byte) (s : State) : Host.Outcome State Fault Refusal :=
  if s.rxState = .waitLen then
    .next
      (if b = 0#8 then (s.clearIdle.raise .badLen).gotoSync
      else { s.clearIdle with rxLen := b, rxCnt := 0#8, rxState := .waitPayload })
  else .refused .rowNotSelected

/-- The store half of RXB in WAIT_PAYLOAD: `asm_buf[rx_cnt] <- b`, `rx_cnt <- rx_cnt + 1` (40_rx_framer.md R104). Index 255, which
no reachable state has, stores nothing (log 12). -/
def State.storePayloadByte (s : State) (b : Byte) : State :=
  { s.clearIdle with asmBuf := s.asmBuf.setIfInBounds s.rxCnt.toNat b, rxCnt := s.rxCnt + 1#8 }

/-- The payload in the assembly buffer, `asm_buf[0 .. rx_len - 1]` (10_state.md R25). -/
def State.assembled (s : State) : List Byte := firstBytes s.asmBuf s.rxLen.toNat

/-- RXB in WAIT_PAYLOAD: the byte is stored, and the last one completes the frame (40_rx_framer.md R104, R106). -/
def execRxbWaitPayload (b : Byte) (s : State) : Host.Outcome State Fault Refusal :=
  if s.rxState = .waitPayload then
    let s1 := s.storePayloadByte b
    .next (if s1.rxCnt = s1.rxLen then s1.complete s1.assembled else s1)
  else .refused .rowNotSelected

/-- RXE in any state: counted, and the framer hunts again; the byte is not examined (40_rx_framer.md R108). -/
def execRxe (k : LineErr) (s : State) : Host.Outcome State Fault Refusal :=
  .next (s.clearIdle.raise (.lineError k)).gotoSync

end Sys2Proof.Machine
end

