-- ==== Sys2Proof/Machine/Tags.lean ====
section
/-! DEFINITION. The meanings of the 29 TAG32 rows and the TAG16 row (43_tag_demux.md R180). The demultiplexer's match is the whole
semantics the block gives a tag (30_encoding.md R94), and it is made when a payload is completed (40_rx_framer.md R106): so a tag
row's meaning is that the payload `tag ++ params` arrives in full and is handed over (log 3). A handler's own behaviour is outside
the block (43_tag_demux.md R186). -/

namespace Sys2Proof.Machine

/-- GATE, handler 0 (30_encoding.md R79). -/
def execGate (params : List Byte) (s : State) : Host.Outcome State Fault Refusal :=
  .next (s.receivePayload (tagPayload 0x45544147#32 params))

/-- COMP, handler 1 (30_encoding.md R79). -/
def execComp (params : List Byte) (s : State) : Host.Outcome State Fault Refusal :=
  .next (s.receivePayload (tagPayload 0x504D4F43#32 params))

/-- AWAH, handler 2 (30_encoding.md R79). -/
def execAwah (params : List Byte) (s : State) : Host.Outcome State Fault Refusal :=
  .next (s.receivePayload (tagPayload 0x48415741#32 params))

/-- OVRD, handler 3 (30_encoding.md R79). -/
def execOvrd (params : List Byte) (s : State) : Host.Outcome State Fault Refusal :=
  .next (s.receivePayload (tagPayload 0x4452564F#32 params))

/-- DIST, handler 4 (30_encoding.md R79). -/
def execDist (params : List Byte) (s : State) : Host.Outcome State Fault Refusal :=
  .next (s.receivePayload (tagPayload 0x54534944#32 params))

/-- EQUL, handler 5 (30_encoding.md R79). -/
def execEqul (params : List Byte) (s : State) : Host.Outcome State Fault Refusal :=
  .next (s.receivePayload (tagPayload 0x4C555145#32 params))

/-- HARM, handler 6 (30_encoding.md R79). -/
def execHarm (params : List Byte) (s : State) : Host.Outcome State Fault Refusal :=
  .next (s.receivePayload (tagPayload 0x4D524148#32 params))

/-- VIBR, handler 7 (30_encoding.md R79). -/
def execVibr (params : List Byte) (s : State) : Host.Outcome State Fault Refusal :=
  .next (s.receivePayload (tagPayload 0x52424956#32 params))

/-- CHOR, handler 8 (30_encoding.md R79). -/
def execChor (params : List Byte) (s : State) : Host.Outcome State Fault Refusal :=
  .next (s.receivePayload (tagPayload 0x524F4843#32 params))

/-- OCTV, handler 9 (30_encoding.md R79). -/
def execOctv (params : List Byte) (s : State) : Host.Outcome State Fault Refusal :=
  .next (s.receivePayload (tagPayload 0x5654434F#32 params))

/-- FLNG, handler 10 (30_encoding.md R79). -/
def execFlng (params : List Byte) (s : State) : Host.Outcome State Fault Refusal :=
  .next (s.receivePayload (tagPayload 0x474E4C46#32 params))

/-- PHAS, handler 11 (30_encoding.md R79). -/
def execPhas (params : List Byte) (s : State) : Host.Outcome State Fault Refusal :=
  .next (s.receivePayload (tagPayload 0x53414850#32 params))

/-- TREM, handler 12 (30_encoding.md R79). -/
def execTrem (params : List Byte) (s : State) : Host.Outcome State Fault Refusal :=
  .next (s.receivePayload (tagPayload 0x4D455254#32 params))

/-- FIR␠, handler 13 (30_encoding.md R79). -/
def execFir (params : List Byte) (s : State) : Host.Outcome State Fault Refusal :=
  .next (s.receivePayload (tagPayload 0x20524946#32 params))

/-- DELY, handler 14 (30_encoding.md R79). -/
def execDely (params : List Byte) (s : State) : Host.Outcome State Fault Refusal :=
  .next (s.receivePayload (tagPayload 0x594C4544#32 params))

/-- NAM␠, handler 15 (30_encoding.md R79). -/
def execNam (params : List Byte) (s : State) : Host.Outcome State Fault Refusal :=
  .next (s.receivePayload (tagPayload 0x204D414E#32 params))

/-- RVRB, handler 16 (30_encoding.md R79). -/
def execRvrb (params : List Byte) (s : State) : Host.Outcome State Fault Refusal :=
  .next (s.receivePayload (tagPayload 0x42525652#32 params))

/-- GNRC, handler 17 (30_encoding.md R79). -/
def execGnrc (params : List Byte) (s : State) : Host.Outcome State Fault Refusal :=
  .next (s.receivePayload (tagPayload 0x43524E47#32 params))

/-- GEN␠, handler 18 (30_encoding.md R79). -/
def execGen (params : List Byte) (s : State) : Host.Outcome State Fault Refusal :=
  .next (s.receivePayload (tagPayload 0x204E4547#32 params))

/-- UTIL, handler 19 (30_encoding.md R79). -/
def execUtil (params : List Byte) (s : State) : Host.Outcome State Fault Refusal :=
  .next (s.receivePayload (tagPayload 0x4C495455#32 params))

/-- LOOP, handler 20 (30_encoding.md R79). -/
def execLoop (params : List Byte) (s : State) : Host.Outcome State Fault Refusal :=
  .next (s.receivePayload (tagPayload 0x504F4F4C#32 params))

/-- DRUM, handler 21 (30_encoding.md R79). -/
def execDrum (params : List Byte) (s : State) : Host.Outcome State Fault Refusal :=
  .next (s.receivePayload (tagPayload 0x4D555244#32 params))

/-- METR, handler 22 (30_encoding.md R79). -/
def execMetr (params : List Byte) (s : State) : Host.Outcome State Fault Refusal :=
  .next (s.receivePayload (tagPayload 0x5254454D#32 params))

/-- BYPS, handler 23 (30_encoding.md R79). -/
def execByps (params : List Byte) (s : State) : Host.Outcome State Fault Refusal :=
  .next (s.receivePayload (tagPayload 0x53505942#32 params))

/-- MIDI, handler 24 (30_encoding.md R79). -/
def execMidi (params : List Byte) (s : State) : Host.Outcome State Fault Refusal :=
  .next (s.receivePayload (tagPayload 0x4944494D#32 params))

/-- REQL, handler 25 (30_encoding.md R79). -/
def execReql (params : List Byte) (s : State) : Host.Outcome State Fault Refusal :=
  .next (s.receivePayload (tagPayload 0x4C514552#32 params))

/-- FLSH, handler 26 (30_encoding.md R79). -/
def execFlsh (params : List Byte) (s : State) : Host.Outcome State Fault Refusal :=
  .next (s.receivePayload (tagPayload 0x48534C46#32 params))

/-- RSTD, handler 27 (30_encoding.md R79). -/
def execRstd (params : List Byte) (s : State) : Host.Outcome State Fault Refusal :=
  .next (s.receivePayload (tagPayload 0x44545352#32 params))

/-- PRES, handler 28 (30_encoding.md R79). -/
def execPres (params : List Byte) (s : State) : Host.Outcome State Fault Refusal :=
  .next (s.receivePayload (tagPayload 0x53455250#32 params))

/-- EQ, the 2-byte tag of handler 5, with its parameters from payload byte 2 (30_encoding.md R80, 43_tag_demux.md R183). -/
def execEq (params : List Byte) (s : State) : Host.Outcome State Fault Refusal :=
  .next (s.receivePayload (0x45#8 :: 0x51#8 :: params))

end Sys2Proof.Machine
end

