-- ==== Sys2Proof/Machine/Tx.lean ====
section
/-! DEFINITION. The meanings of the transmit framer's operations: TXPOP (41_tx_framer.md R145, R146), TXTAG (R141), TXSEND (R142) and
TXSTAGE (10_state.md R49). -/

namespace Sys2Proof.Machine

/-- The state after the byte at tx_idx is taken: tx_busy falls after the last one (41_tx_framer.md R145). -/
def State.popByte (s : State) : State :=
  { s with txIdx := s.txIdx + 1#9, txBusy := s.txIdx + 1#9 != s.txTotal }

/-- TXPOP: the UART transmitter takes one byte. Without a frame in flight there is no byte to take, and the event is refused
(41_tx_framer.md R146; log 5). -/
def execTxpop (s : State) : Host.Outcome State Fault Refusal :=
  if s.txBusy then .next (s.popByte.respond (.txByte s.txByte)) else .refused .txpopWithoutFrame

/-- TXTAG, a write to TX_TAG (41_tx_framer.md R141). -/
def execTxtag (v : Word) (s : State) : Host.Outcome State Fault Refusal := .next ({ s with txTag := v }.respond .writeOk)

/-- TXSEND, a write to TX_SEND (41_tx_framer.md R142). -/
def execTxsend (v : Word) (s : State) : Host.Outcome State Fault Refusal := .next ((s.send v).respond .writeOk)

/-- TXSTAGE, a write to TX_STAGE[k] (10_state.md R49). -/
def execTxstage (k : BitVec 6) (v : Word) (s : State) : Host.Outcome State Fault Refusal :=
  .next ({ s with txStage := stageWord s.txStage k.toNat v }.respond .writeOk)

end Sys2Proof.Machine
end

