-- ==== Sys2Proof/Machine/Watchdog.lean ====
section
/-! DEFINITION. The meaning of TICK, the liveness watchdog's timebase (40_rx_framer.md R120, R121). -/

namespace Sys2Proof.Machine

/-- TICK: idle counts up, saturating, and the watchdog is checked (40_rx_framer.md R120). -/
def execTick (s : State) : Host.Outcome State Fault Refusal := .next { s with idle := sat32 s.idle }.wdtCheck

end Sys2Proof.Machine
end

