-- ==== Sys2Proof/Machine/Dispatch.lean ====
section
/-! DEFINITION. The dispatch: one arm per constructor of `Instr`, each one call of that instruction's meaning. -/

namespace Sys2Proof.Machine

def exec (i : Instr) (s : State) : Host.Outcome State Fault Refusal :=
  match i with
  | .gate params => Sys2Proof.Machine.execGate params s
  | .comp params => Sys2Proof.Machine.execComp params s
  | .awah params => Sys2Proof.Machine.execAwah params s
  | .ovrd params => Sys2Proof.Machine.execOvrd params s
  | .dist params => Sys2Proof.Machine.execDist params s
  | .equl params => Sys2Proof.Machine.execEqul params s
  | .harm params => Sys2Proof.Machine.execHarm params s
  | .vibr params => Sys2Proof.Machine.execVibr params s
  | .chor params => Sys2Proof.Machine.execChor params s
  | .octv params => Sys2Proof.Machine.execOctv params s
  | .flng params => Sys2Proof.Machine.execFlng params s
  | .phas params => Sys2Proof.Machine.execPhas params s
  | .trem params => Sys2Proof.Machine.execTrem params s
  | .fir params => Sys2Proof.Machine.execFir params s
  | .dely params => Sys2Proof.Machine.execDely params s
  | .nam params => Sys2Proof.Machine.execNam params s
  | .rvrb params => Sys2Proof.Machine.execRvrb params s
  | .gnrc params => Sys2Proof.Machine.execGnrc params s
  | .gen params => Sys2Proof.Machine.execGen params s
  | .util params => Sys2Proof.Machine.execUtil params s
  | .loop params => Sys2Proof.Machine.execLoop params s
  | .drum params => Sys2Proof.Machine.execDrum params s
  | .metr params => Sys2Proof.Machine.execMetr params s
  | .byps params => Sys2Proof.Machine.execByps params s
  | .midi params => Sys2Proof.Machine.execMidi params s
  | .reql params => Sys2Proof.Machine.execReql params s
  | .flsh params => Sys2Proof.Machine.execFlsh params s
  | .rstd params => Sys2Proof.Machine.execRstd params s
  | .pres params => Sys2Proof.Machine.execPres params s
  | .eq params => Sys2Proof.Machine.execEq params s
  | .rxbWaitSync b => Sys2Proof.Machine.execRxbWaitSync b s
  | .rxbWaitLen b => Sys2Proof.Machine.execRxbWaitLen b s
  | .rxbWaitPayload b => Sys2Proof.Machine.execRxbWaitPayload b s
  | .rxe k => Sys2Proof.Machine.execRxe k s
  | .tick => Sys2Proof.Machine.execTick s
  | .txpop => Sys2Proof.Machine.execTxpop s
  | .buserr kind off size => Sys2Proof.Machine.execBuserr kind off size s
  | .hrst => Sys2Proof.Machine.execHrst s
  | .ctrlwr v => Sys2Proof.Machine.execCtrlwr v s
  | .consume v => Sys2Proof.Machine.execConsume v s
  | .wdtset v => Sys2Proof.Machine.execWdtset v s
  | .softrst v => Sys2Proof.Machine.execSoftrst v s
  | .cntclr v => Sys2Proof.Machine.execCntclr v s
  | .crcinit v => Sys2Proof.Machine.execCrcinit v s
  | .crcfeed v => Sys2Proof.Machine.execCrcfeed v s
  | .txtag v => Sys2Proof.Machine.execTxtag v s
  | .txsend v => Sys2Proof.Machine.execTxsend v s
  | .txstage k v => Sys2Proof.Machine.execTxstage k v s
  | .rdreg w => Sys2Proof.Machine.execRdreg w s
  | .crcread => Sys2Proof.Machine.execCrcread s
  | .demuxread => Sys2Proof.Machine.execDemuxread s
  | .rxread k => Sys2Proof.Machine.execRxread k s

end Sys2Proof.Machine
end

