-- ==== Sys2Proof/Machine/Step.lean ====
section
/-! DEFINITION. The step: one event per step (00_scope.md R13), taken from the head of `inbox`, decoded in the current receive state and
executed; and the placing of an instruction where the next step fetches it. -/

namespace Sys2Proof.Machine

/-- The state in which the event at the head of `inbox` is executed: the event taken, nothing answered yet. -/
def State.take (s : State) (rest : List Event) : State := { s with inbox := rest, out := .silent }

/-- What a step does with an event: the decoded row's meaning, or, for an admitted write that selects no row, the acknowledgment
alone (20_memory.md R54, 10_state.md R47, 42_crc16.md R162; log 7). -/
def stepEvent (e : Event) (s : State) : Host.Outcome State Fault Refusal :=
  match decodeEvent s.rxState e with
  | some i => exec i s
  | none => .next (s.respond .writeOk)

/-- One step (00_scope.md R13). With no event presented every element keeps its value (60_exceptions.md R238; log 1). -/
def step (s : State) : Host.Outcome State Fault Refusal :=
  match s.inbox with
  | [] => .next s
  | e :: rest => stepEvent e (s.take rest)

/-- A state in which the next step receives the last byte of the payload `p` (log 14). -/
def State.withPayload (s : State) (p : List Byte) : State :=
  { s with
    rxState := .waitPayload
    rxLen := BitVec.ofNat 8 p.length
    rxCnt := BitVec.ofNat 8 (p.length - 1)
    asmBuf := overlay p.dropLast s.asmBuf
    inbox := .rxb (p.getLastD 0#8) :: s.inbox }

/-- The state in which the next step runs the instruction of a number of spec/opcode_table.json: a host access is presented as the
next event, a payload is assembled but for its last byte, which is presented (log 14). -/
def State.withFetchWord (s : State) (nbits w : Nat) : State :=
  match tableCode nbits w with
  | .event e => { s with inbox := e :: s.inbox }
  | .payload p => s.withPayload p

end Sys2Proof.Machine
end

