-- ==== Sys2Proof/Machine/Preset.lean ====
section
/-! DEFINITION. The PresetBinary check and the generation of a PresetBinary: pure functions over bytes, with no register of the block
(44_preset_check.md R200 to R205; 30_encoding.md R82; log 19). -/

namespace Sys2Proof.Machine

/-- The verdicts of `preset_check` (44_preset_check.md R200). -/
inductive Verdict where
  | ok
  | badSize
  | badMagic
  | badCount
  | badCrc
  deriving DecidableEq, Repr

/-- The result of `preset_check` (44_preset_check.md R200). -/
structure PresetResult where
  verdict : Verdict
  versionWarn : Bool
  deriving DecidableEq, Repr

/-- Byte `i` of a block. -/
def presetByte (p : List Byte) (i : Nat) : Byte := p.getD i 0#8

/-- The bytes the checksum covers, offsets 0 to 294 (44_preset_check.md R203). -/
def presetBody (p : List Byte) : List Byte := p.take 295

/-- The stored checksum, low byte at 295 and high byte at 296 (20_memory.md R59, 44_preset_check.md R203). -/
def presetStored (p : List Byte) : Crc :=
  (presetByte p 295).zeroExtend 16 ||| (presetByte p 296).zeroExtend 16 <<< 8

/-- The version warning, made only after the magic has passed (44_preset_check.md R200, R202). -/
def presetWarn (p : List Byte) : Bool := presetByte p 2 != Config.presetVersion

/-- `preset_check(p)`: the checks in the source's order, the first failure deciding (44_preset_check.md R200). -/
def presetCheck (p : List Byte) : PresetResult :=
  if p.length ≠ Config.presetSize then ⟨.badSize, false⟩
  else if presetByte p 0 ≠ Config.presetMagic0 ∨ presetByte p 1 ≠ Config.presetMagic1 then ⟨.badMagic, false⟩
  else if (presetByte p 7).toNat ≠ Config.presetNumEffects then ⟨.badCount, presetWarn p⟩
  else if crc16 (presetBody p) ≠ presetStored p then ⟨.badCrc, presetWarn p⟩
  else ⟨.ok, presetWarn p⟩

/-- One effect of a preset to encode: at most 10 knobs and 4 dropdowns (44_preset_check.md R204). -/
structure PresetEffect where
  enabled : Bool
  knobs : List Byte
  dropdowns : List Byte
  deriving DecidableEq, Repr

/-- What `encode` takes: the metadata, the name's bytes and the 17 effects (44_preset_check.md R204). -/
structure PresetFields where
  bank : Byte
  number : Byte
  masterVolume : Byte
  bpm : Byte
  name : List Byte
  effects : List PresetEffect
  deriving DecidableEq, Repr

/-- The domain of `encode`: a name of at most 31 bytes, 17 effects of at most 10 knobs and 4 dropdowns (44_preset_check.md R204). -/
def PresetFields.wf (f : PresetFields) : Bool :=
  decide (f.name.length ≤ 31) && f.effects.length == Config.presetNumEffects
    && f.effects.all fun e => decide (e.knobs.length ≤ 10) && decide (e.dropdowns.length ≤ 4)

/-- A field of `n` bytes: the given bytes, then zeros (44_preset_check.md R204: the rest stay 0). DESIGN CHOICE (log 24): more than `n`
bytes are cut after `n`. -/
def zeroPadded (n : Nat) (bytes : List Byte) : List Byte := (bytes ++ List.replicate n 0#8).take n

/-- The 15 bytes of an effect: enabled, knobs[10], dropdowns[4] (30_encoding.md R82). -/
def effectBytes (e : PresetEffect) : List Byte :=
  (if e.enabled then 1#8 else 0#8) :: (zeroPadded 10 e.knobs ++ zeroPadded 4 e.dropdowns)

/-- Offsets 0 to 294 of an encoded preset (44_preset_check.md R204, 30_encoding.md R82). DESIGN CHOICE (log 24): outside
`PresetFields.wf` a name of 32 bytes or more fills the name field without a terminator, and another number of effects gives another
length. -/
def encodeBody (f : PresetFields) : List Byte :=
  [ Config.presetMagic0, Config.presetMagic1, Config.presetVersion, f.bank, f.number, f.masterVolume, f.bpm
  , BitVec.ofNat 8 Config.presetNumEffects ]
    ++ zeroPadded 32 f.name ++ f.effects.flatMap effectBytes

/-- The two bytes of a checksum as stored, low byte first (44_preset_check.md R203). -/
def crcBytes (c : Crc) : List Byte := [c.extractLsb' 0 8, c.extractLsb' 8 8]

/-- `encode(meta, name, effects)`, which the spec gives for the fields of `PresetFields.wf` (44_preset_check.md R204). DESIGN CHOICE
(log 24): outside that domain the function still answers, as `zeroPadded` and `encodeBody` say; no statement speaks of it there. -/
def encodePreset (f : PresetFields) : List Byte := encodeBody f ++ crcBytes (crc16 (encodeBody f))

end Sys2Proof.Machine
end

