-- ==== Sys2Proof/Safety.lean ====
section
/-! DEFINITION. What counts as a good state and a safe run, in the terms the statements use: the invariant the spec's rules give the
state elements, and when two states look the same to every agent. -/

namespace Sys2Proof.Machine

/-- rx_len and rx_cnt: 0 outside WAIT_PAYLOAD, and 0 ≤ rx_cnt < rx_len inside it (10_state.md R23, R24). -/
abbrev State.RxOk (s : State) : Prop :=
  (s.rxState ≠ .waitPayload → s.rxLen = 0#8 ∧ s.rxCnt = 0#8) ∧ (s.rxState = .waitPayload → s.rxCnt.toNat < s.rxLen.toNat)

/-- rdy_len: 1 to 255 while a packet is ready (10_state.md R27). -/
abbrev State.ReadyOk (s : State) : Prop := s.rdy = true → 1 ≤ s.rdyLen.toNat

/-- The in-flight slot (10_state.md R21, R37; 41_tx_framer.md R143): tx_idx runs from 0 to tx_total and stops, a frame is in flight
exactly while it has not got there, and a frame that was ever accepted is 6 to 256 bytes, SYNC first and LEN second. -/
abbrev State.TxOk (s : State) : Prop :=
  s.txIdx.toNat ≤ s.txTotal.toNat ∧ s.txTotal.toNat ≤ 256 ∧ (s.txBusy = true ↔ s.txIdx.toNat < s.txTotal.toNat) ∧
    (0 < s.txTotal.toNat →
      6 ≤ s.txTotal.toNat ∧ byteAt s.txFrame 0 = Config.sync ∧ byteAt s.txFrame 1 = BitVec.ofNat 8 (s.txTotal.toNat - 2))

/-- last_err holds a code of 60_exceptions.md R220: 0 to 10. -/
abbrev State.ErrOk (s : State) : Prop := s.lastErr.toNat ≤ 10

/-- The invariant every step keeps; the last part says that the tables are ones an instance may have. -/
abbrev State.Inv (s : State) : Prop := s.RxOk ∧ s.ReadyOk ∧ s.TxOk ∧ s.ErrOk ∧ s.tables.wf

/-- Two buffers that agree on the indices from `lo` below `hi`. -/
def SameBytes {n : Nat} (a b : Vector Byte n) (lo hi : Nat) : Prop :=
  ∀ i, lo ≤ i → i < hi → byteAt a i = byteAt b i

/-- Two states that differ at most in bytes no rule reads (10_state.md R25, R28, R37; 93_implementation_defined.md I11 to I13): the
assembly buffer from rx_cnt on, the ready buffer from rdy_len on or while no packet is ready, the frame buffer outside the bytes
still to be sent, and the model's own reset count. -/
structure SameToAgents (s t : State) : Prop where
  rest : { t with asmBuf := s.asmBuf, rdyBuf := s.rdyBuf, txFrame := s.txFrame, freeCtr := s.freeCtr } = s
  asm : SameBytes s.asmBuf t.asmBuf 0 s.rxCnt.toNat
  ready : s.rdy = true → SameBytes s.rdyBuf t.rdyBuf 0 s.rdyLen.toNat
  frame : s.txBusy = true → SameBytes s.txFrame t.txFrame s.txIdx.toNat s.txTotal.toNat

/-- A step that is refused is one the spec gives no effect: a TXPOP with no frame in flight (41_tx_framer.md R146). -/
def State.Unsafe (s : State) : Prop := s.inbox.head? = some .txpop ∧ s.txBusy = false

end Sys2Proof.Machine
end

