-- ==== Sys2Proof/Certificates/Slice0/Obligations.lean ====
section
/-! DEFINITION. The statements for the provers, written from the spec's numbered rules. A statement about an instruction gives the
whole next state, so it is that instruction's result, its completion and its frame at once. -/

open Sys2Proof Sys2Proof.Machine

/-! ### Names used in the statements -/

/-- The 29 TAG32 rows: tag word, handler index, parameters (30_encoding.md R79). -/
def Sys2Proof.Instr.tagRow : Instr → Option (Word × Nat × List Byte)
  | .gate params => some (0x45544147#32, 0, params)
  | .comp params => some (0x504D4F43#32, 1, params)
  | .awah params => some (0x48415741#32, 2, params)
  | .ovrd params => some (0x4452564F#32, 3, params)
  | .dist params => some (0x54534944#32, 4, params)
  | .equl params => some (0x4C555145#32, 5, params)
  | .harm params => some (0x4D524148#32, 6, params)
  | .vibr params => some (0x52424956#32, 7, params)
  | .chor params => some (0x524F4843#32, 8, params)
  | .octv params => some (0x5654434F#32, 9, params)
  | .flng params => some (0x474E4C46#32, 10, params)
  | .phas params => some (0x53414850#32, 11, params)
  | .trem params => some (0x4D455254#32, 12, params)
  | .fir params => some (0x20524946#32, 13, params)
  | .dely params => some (0x594C4544#32, 14, params)
  | .nam params => some (0x204D414E#32, 15, params)
  | .rvrb params => some (0x42525652#32, 16, params)
  | .gnrc params => some (0x43524E47#32, 17, params)
  | .gen params => some (0x204E4547#32, 18, params)
  | .util params => some (0x4C495455#32, 19, params)
  | .loop params => some (0x504F4F4C#32, 20, params)
  | .drum params => some (0x4D555244#32, 21, params)
  | .metr params => some (0x5254454D#32, 22, params)
  | .byps params => some (0x53505942#32, 23, params)
  | .midi params => some (0x4944494D#32, 24, params)
  | .reql params => some (0x4C514552#32, 25, params)
  | .flsh params => some (0x48534C46#32, 26, params)
  | .rstd params => some (0x44545352#32, 27, params)
  | .pres params => some (0x53455250#32, 28, params)
  | _ => none

/-- The payload an instruction of the TAG32 and TAG16 rows stands for. -/
def Sys2Proof.Instr.payload (i : Instr) : Option (List Byte) :=
  match encode i with
  | .payload p => some p
  | .event _ => none

/-- The two length-check bits of a hit with `n` parameter bytes where `expected` are expected: NONE 0, OK 1, SHORT 2, LONG 3
(43_tag_demux.md R184, 10_state.md R46). -/
def Sys2Proof.Machine.lenChkBits (expected : Option Nat) (n : Nat) : BitVec 2 :=
  match expected with
  | none => 0#2
  | some e => if n = e then 1#2 else if n < e then 2#2 else 3#2

/-- The event is an admitted write to the register at the offset (20_memory.md R52). -/
def Sys2Proof.Event.writesTo (e : Event) (off : BitVec 10) (v : Word) : Prop := e = .wr off 4 v

/-- The offsets at which a write performs an operation (10_state.md R40): CTRL, RX_ACK, WDT_TIMEOUT, CMD, CRC_CTRL, CRC_DATA, TX_TAG,
TX_SEND and the TX_STAGE window. -/
def Sys2Proof.Machine.writableOffset (off : BitVec 10) : Prop :=
  off ∈ [0x000#10, 0x010#10, 0x014#10, 0x01C#10, 0x040#10, 0x044#10, 0x050#10, 0x054#10] ∨
    (0x200 ≤ off.toNat ∧ off.toNat < 0x300)

/-- The place of an event's agent in the same-cycle order (60_exceptions.md R232). -/
def Sys2Proof.Event.cycleRank : Event → Nat
  | .hrst => 0
  | .rd _ _ => 1
  | .wr _ _ _ => 1
  | .rxb _ => 2
  | .rxe _ => 2
  | .txpop => 3
  | .tick => 4

/-- `k` steps of the machine. -/
def Sys2Proof.Machine.runSteps (k : Nat) (s : State) : Host.Outcome State Fault Refusal := Sys2Proof.core.run k s

/-- `k` bytes looped back: the block hands out a byte (TXPOP), and that byte is then presented to it as received. -/
def Sys2Proof.Machine.loopback : Nat → State → Option State
  | 0, s => some s
  | k + 1, s =>
    match step { s with inbox := [.txpop] } with
    | .next u =>
      match u.out with
      | .txByte b =>
        match step { u with inbox := [.rxb b] } with
        | .next w => loopback k w
        | _ => none
      | _ => none
    | _ => none

/-! ### Encoding and decoding -/

/-- Every well-formed instruction decodes back from its encoding, under the tables of any instance and in a receive state that selects
its row. -/
def Obligations.DecodeOfEncodeIsIdentity : Prop :=
  ∀ (t : Config.Tables) (st : RxState) (i : Instr), t.wf → i.wf t = true → i.selectedIn st = true → decode t st (encode i) = .ok i

/-- What the decoder reads is well formed and is a row the receive state selects, whatever the tables. -/
def Obligations.DecodedInstrIsWellFormed : Prop :=
  ∀ (t : Config.Tables) (st : RxState) (c : Code) (i : Instr), decode t st c = .ok i → i.wf t = true ∧ i.selectedIn st = true

/-- A payload has one meaning: the instruction read from it encodes to exactly that payload, every byte kept. -/
def Obligations.DecodedPayloadEncodesBack : Prop :=
  ∀ (t : Config.Tables) (st : RxState) (p : List Byte) (i : Instr), decode t st (.payload p) = .ok i → encode i = .payload p

/-- Words written out from the spec's encodings decode to the instructions they stand for: a 4-byte tag, a tag ending in a space, the
2-byte tag, and one access of each host format (30_encoding.md R79, R80, R91). -/
def Obligations.SpecWordsDecodeAsListed : Prop :=
  decode Config.tables .waitSync (.payload [0x4F#8, 0x56#8, 0x52#8, 0x44#8, 0x01#8]) = .ok (.ovrd [0x01#8]) ∧
    decode Config.tables .waitSync (.payload [0x47#8, 0x45#8, 0x4E#8, 0x20#8]) = .ok (.gen []) ∧
    decode Config.tables .waitSync (.payload [0x45#8, 0x51#8, 0x01#8, 0x02#8]) = .ok (.eq [0x01#8, 0x02#8]) ∧
    decode Config.tables .waitSync (.payload [0x45#8, 0x51#8, 0x55#8, 0x4C#8]) = .ok (.equl []) ∧
    decode Config.tables .waitSync (.payload [0x6F#8, 0x76#8, 0x72#8, 0x64#8]) = .error .tagMiss ∧
    decode Config.tables .waitLen (.event (.rxb 0x11#8)) = .ok (.rxbWaitLen 0x11#8) ∧
    decode Config.tables .waitSync (.event (.wr 0x044#10 4 0x31#32)) = .ok (.crcfeed 0x31#32) ∧
    decode Config.tables .waitSync (.event (.wr 0x2F8#10 4 0x44332211#32)) = .ok (.txstage 62#6 0x44332211#32) ∧
    decode Config.tables .waitSync (.event (.rd 0x1FC#10 4)) = .ok (.rxread 63#6) ∧
    decode Config.tables .waitSync (.event (.rd 0x006#10 4)) = .ok (.buserr .read 0x006#10 4)

/-- The decoder and the demultiplexer agree on every payload of 1 to 255 bytes, under the tables of any instance: the demultiplexer
misses exactly the payloads the decoder rejects as misses; a payload that decodes hits, on its row's handler, by a 4-byte tag for the 29
tags and by the alias of handler 5 for EQ; and a hit without a row, which only an instance's own entries make, is rejected as such. -/
def Obligations.TagRowsAgreeWithDemux : Prop :=
  ∀ (t : Config.Tables) (p : List Byte), t.wf → p ≠ [] → p.length ≤ 255 →
    ((demux t p).hit = false ↔ decodePayload t p = .error .tagMiss ∨ decodePayload t p = .error .tagShortMiss) ∧
      ((demux t p).hit = true ↔ (∃ i, decodePayload t p = .ok i) ∨ decodePayload t p = .error .tableExtension) ∧
      (∀ i tag h params, decodePayload t p = .ok i → i.tagRow = some (tag, h, params) →
        (demux t p).handler = h ∧ (demux t p).aliasHit = false) ∧
      (∀ params, decodePayload t p = .ok (.eq params) → (demux t p).handler = 5 ∧ (demux t p).aliasHit = true) ∧
      (t = Config.tables → decodePayload t p ≠ .error .tableExtension)

/-! ### The step -/

/-- A step takes the first event, decodes it in the current receive state and executes what it decodes to; an admitted write that
selects no row is acknowledged and changes nothing; with no event the state stays. -/
def Obligations.StepRunsDecodedEvent : Prop :=
  (∀ s : State, s.inbox = [] → step s = .next s) ∧
    ∀ (s : State) (e : Event) (rest : List Event), s.inbox = e :: rest →
      (∀ i, decodeEvent s.rxState e = some i → step s = exec i { s with inbox := rest, out := .silent }) ∧
        (decodeEvent s.rxState e = none → step s = .next { s with inbox := rest, out := .writeOk })

/-- The byte that completes a payload runs the payload's tag row: the step is that row's meaning. -/
def Obligations.CompletingByteRunsTagRow : Prop :=
  ∀ (s : State) (b : Byte) (rest : List Event) (i : Instr),
    s.inbox = .rxb b :: rest → s.rxState = .waitPayload → s.rxCnt.toNat + 1 = s.rxLen.toNat →
    decodePayload s.tables (firstBytes s.asmBuf s.rxCnt.toNat ++ [b]) = .ok i →
    step s = exec i { s with inbox := rest, out := .silent }

/-- The only step that is not a next state is a TXPOP with no frame in flight, and it is refused. The meaning of an RXB row outside
the receive state that selects the row is refused by name (the model's choice, log 4), so no step reaches that refusal. -/
def Obligations.OnlyIdleTxpopIsRefused : Prop :=
  (∀ s : State,
    ((∃ t, step s = .next t) ∨ step s = .refused .txpopWithoutFrame) ∧
      (step s = .refused .txpopWithoutFrame ↔ s.inbox.head? = some .txpop ∧ s.txBusy = false)) ∧
    ∀ (s : State) (b : Byte),
      (s.rxState ≠ .waitSync → exec (.rxbWaitSync b) s = .refused .rowNotSelected) ∧
        (s.rxState ≠ .waitLen → exec (.rxbWaitLen b) s = .refused .rowNotSelected) ∧
        (s.rxState ≠ .waitPayload → exec (.rxbWaitPayload b) s = .refused .rowNotSelected)

/-- Every step keeps the invariant: the receive counts, the ready length, the in-flight slot and the error code stay legal. No step
changes the instance's tables, from any state. -/
def Obligations.EveryStepKeepsInv : Prop :=
  ∀ s t : State, step s = .next t → (s.Inv → t.Inv) ∧ t.tables = s.tables

/-- The reset state meets the invariant. -/
def Obligations.ResetStateMeetsInv : Prop := State.reset.Inv

/-- While a packet is ready, no event but hardware reset changes its length or bytes, and only a write to RX_ACK clears the flag. -/
def Obligations.ReadyPacketIsStable : Prop :=
  ∀ (s t : State) (e : Event) (rest : List Event), s.rdy = true → s.inbox = e :: rest → e ≠ .hrst → step s = .next t →
    t.rdyLen = s.rdyLen ∧ t.rdyBuf = s.rdyBuf ∧ (t.rdy = false → ∃ v, e.writesTo 0x010#10 v)

/-- The bytes the spec leaves unspecified are never observable: two states that differ only in them step alike, give every agent the
same output, and differ afterwards only in such bytes again. -/
def Obligations.UnspecifiedBytesAreUnobservable : Prop :=
  ∀ s t : State, s.Inv → SameToAgents s t →
    (∀ w, t.regRead w = s.regRead w) ∧
      (∀ s', step s = .next s' → ∃ t', step t = .next t' ∧ SameToAgents s' t') ∧
      (∀ r, step s = .refused r → step t = .refused r)

/-- A step records at most one error event, and the counters change only by their own increment or by CNTCLR. A packet's installation
counts it, alone or with a tag miss. -/
def Obligations.StepRecordsAtMostOneError : Prop :=
  ∀ (s t : State) (e : Event) (rest : List Event), s.inbox = e :: rest → e ≠ .hrst → step s = .next t →
    (t.lastErr = s.lastErr ∧ (t.cnt = s.cnt ∨ t.cnt = { s.cnt with pkt := inc16 s.cnt.pkt })) ∨
      (∃ err : ErrEvent, t.lastErr = err.code ∧ t.cnt = s.cnt.count err) ∨
      (t.lastErr = 7#4 ∧ t.cnt = { s.cnt with pkt := inc16 s.cnt.pkt, tagMiss := inc16 s.cnt.tagMiss }) ∨
      (t.lastErr = 0#4 ∧ t.cnt = {} ∧ ∃ v, e.writesTo 0x01C#10 v ∧ v.getLsbD 1 = true)

/-- Every admitted read of the window answers the addressed register and changes nothing else, whichever read row it is. -/
def Obligations.AdmittedReadAnswersRegister : Prop :=
  ∀ (s : State) (w : BitVec 8) (rest : List Event), s.inbox = .rd (offOfWord w) 4 :: rest →
    step s = .next { s with inbox := rest, out := .readData (s.regRead w) }

/-- A write to a read-only register or an unmapped offset, a write to CMD with neither bit set and a write to CRC_CTRL with bit 0 clear
change nothing. -/
def Obligations.WriteWithoutOperationChangesNothing : Prop :=
  ∀ (s : State) (w : BitVec 8) (v : Word) (rest : List Event), s.inbox = .wr (offOfWord w) 4 v :: rest →
    (¬ writableOffset (offOfWord w) ∨ (offOfWord w = 0x01C#10 ∧ v.getLsbD 0 = false ∧ v.getLsbD 1 = false) ∨
      (offOfWord w = 0x040#10 ∧ v.getLsbD 0 = false)) →
    step s = .next { s with inbox := rest, out := .writeOk }

/-- The CRC unit, the transmit unit and the control fields are out of every receive event's reach. -/
def Obligations.ReceiveEventsLeaveOtherUnits : Prop :=
  ∀ (s t : State) (e : Event) (rest : List Event), s.inbox = e :: rest → ((∃ b, e = .rxb b) ∨ ∃ k, e = .rxe k) →
    step s = .next t →
    t.idle = 0#32 ∧ t.crc = s.crc ∧ t.txTag = s.txTag ∧ t.txStage = s.txStage ∧ t.txBusy = s.txBusy ∧
      t.txFrame = s.txFrame ∧ t.txTotal = s.txTotal ∧ t.txIdx = s.txIdx ∧ t.wdtEn = s.wdtEn ∧ t.irqEn = s.irqEn ∧
      t.wdtTimeout = s.wdtTimeout

/-- Only a write to CRC_CTRL or CRC_DATA and hardware reset change the CRC register: the receive framer never feeds it. -/
def Obligations.OnlyHostChangesCrc : Prop :=
  ∀ (s t : State) (e : Event) (rest : List Event), s.inbox = e :: rest → step s = .next t → t.crc ≠ s.crc →
    e = .hrst ∨ (∃ v, e.writesTo 0x040#10 v) ∨ ∃ v, e.writesTo 0x044#10 v

/-- The interrupt rises only when a packet is installed with IRQ_EN set or IRQ_EN is written 1 over a ready packet, and falls only on
CONSUME, on writing IRQ_EN = 0 and on reset. -/
def Obligations.InterruptFollowsEnableAndReady : Prop :=
  ∀ (s t : State) (e : Event) (rest : List Event), s.inbox = e :: rest → step s = .next t →
    (s.irq = false → t.irq = true →
      (s.irqEn = true ∧ s.rdy = false ∧ t.rdy = true ∧ ∃ b, e = .rxb b) ∨
        (s.rdy = true ∧ ∃ v, e.writesTo 0x000#10 v ∧ v.getLsbD 1 = true)) ∧
    (s.irq = true → t.irq = false →
      e = .hrst ∨ (∃ v, e.writesTo 0x010#10 v) ∨ ∃ v, e.writesTo 0x000#10 v ∧ v.getLsbD 1 = false)

/-- Length commitment: in WAIT_PAYLOAD the framer leaves only by the last byte, a line error, a watchdog force-reset, SOFT_RST or
hardware reset; until then the length stays and each error-free byte, whatever its value, is counted. -/
def Obligations.FramerCommitsToLength : Prop :=
  ∀ (s t : State) (e : Event) (rest : List Event), s.Inv → s.rxState = .waitPayload → s.inbox = e :: rest → step s = .next t →
    (t.rxState = .waitPayload ∧ t.rxLen = s.rxLen ∧
      ((∃ b, e = .rxb b ∧ t.rxCnt = s.rxCnt + 1#8 ∧ s.rxCnt.toNat + 1 < s.rxLen.toNat) ∨
        ((∀ b, e ≠ .rxb b) ∧ t.rxCnt = s.rxCnt))) ∨
      (t.rxState = .waitSync ∧
        ((∃ b, e = .rxb b ∧ s.rxCnt.toNat + 1 = s.rxLen.toNat) ∨ (∃ k, e = .rxe k) ∨ e = .hrst ∨
          (e = .tick ∧ s.wdtEn = true ∧ s.wdtTimeout.toNat < t.idle.toNat) ∨
          ∃ v, e.writesTo 0x01C#10 v ∧ v.getLsbD 0 = true))

/-- A frame in flight is a copy: until it is sent or hardware resets, no step changes its image or its size. -/
def Obligations.FrameInFlightIsStable : Prop :=
  ∀ (s t : State) (e : Event) (rest : List Event), s.txBusy = true → s.inbox = e :: rest → e ≠ .hrst → step s = .next t →
    t.txFrame = s.txFrame ∧ t.txTotal = s.txTotal

/-! ### The receive framer -/

/-- RXB in WAIT_SYNC: SYNC moves to WAIT_LEN; any other byte changes nothing but idle. -/
def Obligations.RxbHuntsForSync : Prop :=
  ∀ (s : State) (b : Byte), s.rxState = .waitSync →
    exec (.rxbWaitSync b) s =
      .next (if b = 0xAA#8 then { s with idle := 0#32, rxState := .waitLen } else { s with idle := 0#32 })

/-- RXB in WAIT_LEN: 0 is counted as a bad length and returns to WAIT_SYNC; 1 to 255 become the length. -/
def Obligations.RxbTakesLength : Prop :=
  ∀ (s : State) (b : Byte), s.rxState = .waitLen →
    exec (.rxbWaitLen b) s =
      .next
        (if b = 0#8 then
          { s with
            idle := 0#32, cnt := { s.cnt with lenErr := s.cnt.lenErr + 1#16 }, lastErr := 4#4
            rxState := .waitSync, rxLen := 0#8, rxCnt := 0#8 }
        else { s with idle := 0#32, rxLen := b, rxCnt := 0#8, rxState := .waitPayload })

/-- RXB in WAIT_PAYLOAD before the last byte: the byte is stored at rx_cnt and counted, and nothing else changes. -/
def Obligations.RxbStoresPayloadByte : Prop :=
  ∀ (s : State) (b : Byte), s.rxState = .waitPayload → s.rxCnt.toNat + 1 < s.rxLen.toNat →
    ∃ t, exec (.rxbWaitPayload b) s = .next t ∧
      t = { s with idle := 0#32, asmBuf := t.asmBuf, rxCnt := s.rxCnt + 1#8 } ∧
      ∀ i, i < 255 → byteAt t.asmBuf i = if i = s.rxCnt.toNat then b else byteAt s.asmBuf i

/-- RXB in WAIT_PAYLOAD, the last byte with the slot free: the payload is installed, stale bytes beyond it stay, a tag miss is counted
and recorded, and the framer hunts again in the same step. -/
def Obligations.RxbLastByteInstallsPacket : Prop :=
  ∀ (s : State) (b : Byte), s.rxState = .waitPayload → s.rxCnt.toNat + 1 = s.rxLen.toNat → s.rdy = false →
    ∃ t, exec (.rxbWaitPayload b) s = .next t ∧
      t = { s with
        idle := 0#32, asmBuf := t.asmBuf, rdyBuf := t.rdyBuf, rdyLen := s.rxLen, rdy := true
        rxState := .waitSync, rxLen := 0#8, rxCnt := 0#8, cnt := t.cnt, lastErr := t.lastErr } ∧
      (∀ i, i < 255 → byteAt t.asmBuf i = if i = s.rxCnt.toNat then b else byteAt s.asmBuf i) ∧
      (∀ i, i < 255 → byteAt t.rdyBuf i = if i < s.rxLen.toNat then byteAt t.asmBuf i else byteAt s.rdyBuf i) ∧
      (if (demux s.tables (firstBytes s.asmBuf s.rxCnt.toNat ++ [b])).hit = true then
        t.cnt = { s.cnt with pkt := s.cnt.pkt + 1#16 } ∧ t.lastErr = s.lastErr
      else
        t.cnt = { s.cnt with pkt := s.cnt.pkt + 1#16, tagMiss := s.cnt.tagMiss + 1#16 } ∧ t.lastErr = 7#4)

/-- RXB in WAIT_PAYLOAD, the last byte while a packet is ready: the new payload is dropped and counted, the ready one kept. -/
def Obligations.RxbLastByteDropsWhileReady : Prop :=
  ∀ (s : State) (b : Byte), s.rxState = .waitPayload → s.rxCnt.toNat + 1 = s.rxLen.toNat → s.rdy = true →
    ∃ t, exec (.rxbWaitPayload b) s = .next t ∧
      t = { s with
        idle := 0#32, asmBuf := t.asmBuf, cnt := { s.cnt with rxDrop := s.cnt.rxDrop + 1#16 }, lastErr := 5#4
        rxState := .waitSync, rxLen := 0#8, rxCnt := 0#8 } ∧
      ∀ i, i < 255 → byteAt t.asmBuf i = if i = s.rxCnt.toNat then b else byteAt s.asmBuf i

/-- RXE in any state: idle is cleared, the line error is counted and recorded by its kind, and the frame in progress is abandoned. -/
def Obligations.RxeAbandonsFrame : Prop :=
  ∀ (s : State) (k : LineErr),
    exec (.rxe k) s =
      .next { s with
        idle := 0#32, cnt := { s.cnt with lineErr := s.cnt.lineErr + 1#16 }
        lastErr := match k with
          | .framing => 1#4
          | .parity => 2#4
          | .overrun => 3#4
        rxState := .waitSync, rxLen := 0#8, rxCnt := 0#8 }

/-- TICK: idle counts up and saturates; with the watchdog enabled, outside WAIT_SYNC and past the threshold, the framer is force-reset
and the event counted and recorded. -/
def Obligations.TickCountsAndChecksWatchdog : Prop :=
  ∀ s : State, ∃ idle' : Word, idle'.toNat = min (s.idle.toNat + 1) (2 ^ 32 - 1) ∧
    exec .tick s =
      .next
        (if s.wdtEn = true ∧ s.rxState ≠ .waitSync ∧ s.wdtTimeout.toNat < idle'.toNat then
          { s with
            idle := idle', cnt := { s.cnt with wdt := s.cnt.wdt + 1#16 }, lastErr := 6#4
            rxState := .waitSync, rxLen := 0#8, rxCnt := 0#8 }
        else { s with idle := idle' })

/-- An enabled watchdog lets wdt_timeout ticks pass and fires on the next one, once a byte has left the framer outside WAIT_SYNC. -/
def Obligations.WatchdogFiresAfterThreshold : Prop :=
  ∀ (s : State) (rest : List Event), s.wdtEn = true → s.rxState ≠ .waitSync → s.idle = 0#32 → s.wdtTimeout ≠ 0xFFFFFFFF#32 →
    s.inbox = List.replicate (s.wdtTimeout.toNat + 1) Event.tick ++ rest →
    (∀ k, k ≤ s.wdtTimeout.toNat → ∃ t, runSteps k s = .next t ∧ t.rxState = s.rxState ∧ t.cnt = s.cnt ∧ t.idle.toNat = k) ∧
      ∃ t, runSteps (s.wdtTimeout.toNat + 1) s = .next t ∧ t.inbox = rest ∧ t.rxState = .waitSync ∧
        t.cnt = { s.cnt with wdt := s.cnt.wdt + 1#16 } ∧ t.lastErr = 6#4 ∧ t.idle.toNat = s.wdtTimeout.toNat + 1

/-- Receiving the bytes of a frame from WAIT_SYNC with the slot free installs exactly its payload, whatever bytes it holds, SYNC
included, and leaves the framer hunting. -/
def Obligations.FrameBytesInstallTheirPayload : Prop :=
  ∀ (s : State) (p : List Byte) (rest : List Event), p ≠ [] → p.length ≤ 255 → s.rxState = .waitSync → s.rdy = false →
    s.inbox = (frameOf p).map Event.rxb ++ rest →
    ∃ t, runSteps (2 + p.length) s = .next t ∧ t.inbox = rest ∧ t.rdy = true ∧ t.rdyLen.toNat = p.length ∧
      t.readyPayload = p ∧ t.rxState = .waitSync ∧ t.cnt.pkt = s.cnt.pkt + 1#16 ∧
      t.cnt.tagMiss = (if (demux s.tables p).hit = true then s.cnt.tagMiss else s.cnt.tagMiss + 1#16)

/-- Receiving the bytes of a frame while a packet is ready drops it: the ready packet is kept and the drop counted. -/
def Obligations.FrameBytesWhileReadyAreDropped : Prop :=
  ∀ (s : State) (p : List Byte) (rest : List Event), p ≠ [] → p.length ≤ 255 → s.rxState = .waitSync → s.rdy = true →
    s.inbox = (frameOf p).map Event.rxb ++ rest →
    ∃ t, runSteps (2 + p.length) s = .next t ∧ t.inbox = rest ∧ t.rdy = true ∧ t.readyPayload = s.readyPayload ∧
      t.rxState = .waitSync ∧ t.cnt = { s.cnt with rxDrop := s.cnt.rxDrop + 1#16 } ∧ t.lastErr = 5#4

/-! ### The tag rows and the demultiplexer -/

/-- Each of the 29 tag rows (GATE, COMP, AWAH, OVRD, DIST, EQUL, HARM, VIBR, CHOR, OCTV, FLNG, PHAS, TREM, FIR, DELY, NAM, RVRB, GNRC,
GEN, UTIL, LOOP, DRUM, METR, BYPS, MIDI, REQL, FLSH, RSTD, PRES) completes with the slot free: its payload is installed with no tag
miss, and DEMUX then reads VALID, HIT, the row's handler, the parameter length, the length check and offset 4. It holds for the tables
of any instance; every instance expects 13 parameter bytes of OVRD. -/
def Obligations.TagRowInstallsAndReportsHandler : Prop :=
  ∀ (s : State) (i : Instr) (tag : Word) (h : Nat) (params : List Byte),
    s.tables.wf → i.tagRow = some (tag, h, params) → params.length ≤ 251 → s.rdy = false →
    s.tables.expected 3 = some 13 ∧ ∃ t, exec i s = .next t ∧
      t = { s with
        idle := 0#32, asmBuf := t.asmBuf, rdyBuf := t.rdyBuf, rdyLen := BitVec.ofNat 8 (4 + params.length), rdy := true
        cnt := { s.cnt with pkt := s.cnt.pkt + 1#16 }, rxState := .waitSync, rxLen := 0#8, rxCnt := 0#8 } ∧
      t.readyPayload = bytesOfWord tag ++ params ∧
      firstBytes t.asmBuf (4 + params.length) = bytesOfWord tag ++ params ∧
      (∀ j, 4 + params.length ≤ j → byteAt t.rdyBuf j = byteAt s.rdyBuf j ∧ byteAt t.asmBuf j = byteAt s.asmBuf j) ∧
      exec .demuxread t =
        .next { t with
          out := .readData
            (3#32 ||| BitVec.ofNat 32 h <<< 8 ||| BitVec.ofNat 32 params.length <<< 16
              ||| (lenChkBits (s.tables.expected h) params.length).zeroExtend 32 <<< 24 ||| 4#32 <<< 28) }

/-- The 2-byte row EQ completes with the slot free: DEMUX then reads an alias hit on handler 5 with the parameters at the instance's
ALIAS_PARAM_OFFSET (2 by default), and TAG_SHORT when the payload has fewer than 4 bytes. -/
def Obligations.EqRowInstallsAsAliasOfFive : Prop :=
  ∀ (s : State) (params : List Byte), s.tables.wf → (Instr.eq params).wf s.tables = true → s.rdy = false →
    ∃ t, exec (.eq params) s = .next t ∧
      t = { s with
        idle := 0#32, asmBuf := t.asmBuf, rdyBuf := t.rdyBuf, rdyLen := BitVec.ofNat 8 (2 + params.length), rdy := true
        cnt := { s.cnt with pkt := s.cnt.pkt + 1#16 }, rxState := .waitSync, rxLen := 0#8, rxCnt := 0#8 } ∧
      t.readyPayload = 0x45#8 :: 0x51#8 :: params ∧
      firstBytes t.asmBuf (2 + params.length) = 0x45#8 :: 0x51#8 :: params ∧
      (∀ j, 2 + params.length ≤ j → byteAt t.rdyBuf j = byteAt s.rdyBuf j ∧ byteAt t.asmBuf j = byteAt s.asmBuf j) ∧
      exec .demuxread t =
        .next { t with
          out := .readData
            (7#32 ||| (if params.length < 2 then 8#32 else 0#32) ||| 5#32 <<< 8
              ||| BitVec.ofNat 32 (2 + params.length - s.tables.aliasParamOffset) <<< 16
              ||| (lenChkBits (s.tables.expected 5) (2 + params.length - s.tables.aliasParamOffset)).zeroExtend 32 <<< 24
              ||| BitVec.ofNat 32 s.tables.aliasParamOffset <<< 28) }

/-- Each of the 30 tag rows while a packet is ready: the payload is dropped and counted, and the ready packet kept. -/
def Obligations.TagRowIsDroppedWhileReady : Prop :=
  ∀ (s : State) (i : Instr) (p : List Byte), i.payload = some p → i.wf s.tables = true → s.rdy = true →
    ∃ t, exec i s = .next t ∧
      t = { s with
        idle := 0#32, asmBuf := t.asmBuf, cnt := { s.cnt with rxDrop := s.cnt.rxDrop + 1#16 }, lastErr := 5#4
        rxState := .waitSync, rxLen := 0#8, rxCnt := 0#8 } ∧
      firstBytes t.asmBuf p.length = p ∧ ∀ j, p.length ≤ j → byteAt t.asmBuf j = byteAt s.asmBuf j

/-- For any tables: a payload whose 4-byte tag stands in TAG_TABLE hits the first entry that holds it, with parameters at offset 4. That
it is so for more than 255 bytes, where the spec gives demux no value, is the model's choice (log 22). -/
def Obligations.DemuxTakesFirstFourByteMatch : Prop :=
  ∀ (t : Config.Tables) (p : List Byte) (w : Word) (h : Nat), tag32 p = some w → t.tagTable[h]? = some w →
    (∀ j, j < h → t.tagTable[j]? ≠ some w) →
    demux t p =
      { hit := true, aliasHit := false, tagShort := false, handler := h, paramOff := 4, paramLen := p.length - 4
        lenChk := match t.expected h with
          | none => .none
          | some e => if p.length - 4 = e then .ok else if p.length - 4 < e then .short else .long }

/-- For any tables: the 2-byte tags are tried only when no 4-byte tag matches and the payload reaches the alias parameters, and then the
first entry that holds the payload's first two bytes hits. That it is so for more than 255 bytes, where the spec gives demux no value,
is the model's choice (log 22). -/
def Obligations.DemuxTriesAliasAfterMiss : Prop :=
  ∀ (t : Config.Tables) (p : List Byte) (a : BitVec 16) (h : Nat), (∀ w, tag32 p = some w → w ∉ t.tagTable) →
    max 2 t.aliasParamOffset ≤ p.length → tag16 p = some a → t.aliasTable.lookup a = some h →
    demux t p =
      { hit := true, aliasHit := true, tagShort := decide (p.length < 4), handler := h, paramOff := t.aliasParamOffset
        paramLen := p.length - t.aliasParamOffset
        lenChk := match t.expected h with
          | none => .none
          | some e =>
            if p.length - t.aliasParamOffset = e then .ok
            else if p.length - t.aliasParamOffset < e then .short else .long }

/-- For any tables: a payload whose 4-byte tag, where it has one, is not in TAG_TABLE, and which no alias matches, is reported as a
miss: HANDLER 31, PARAM_OFF 4, PARAM_LEN max(len - 4, 0), LEN_CHK NONE. That it is so for no bytes and for more than 255 is the model's
choice (log 22). -/
def Obligations.DemuxReportsMissAsHandler31 : Prop :=
  ∀ (t : Config.Tables) (p : List Byte), (∀ w, tag32 p = some w → w ∉ t.tagTable) →
    (max 2 t.aliasParamOffset ≤ p.length → ∀ a, tag16 p = some a → t.aliasTable.lookup a = none) →
    demux t p =
      { hit := false, aliasHit := false, tagShort := decide (p.length < 4), handler := 31, paramOff := 4
        paramLen := p.length - 4, lenChk := .none }

/-- The fields of DEMUX while a packet is ready, each at its bits, with the reserved bits 0, for the tables of any instance; 0x00001F00
while no packet is ready. -/
def Obligations.DemuxRegisterFields : Prop :=
  ∀ s : State,
    (s.rdy = false → exec .demuxread s = .next { s with out := .readData 0x00001F00#32 }) ∧
      (s.rdy = true → s.tables.wf →
        ∃ v : Word, exec .demuxread s = .next { s with out := .readData v } ∧
          v.extractLsb' 0 1 = 1#1 ∧ v.extractLsb' 1 1 = BitVec.ofBool s.demuxOut.hit ∧
          v.extractLsb' 2 1 = BitVec.ofBool s.demuxOut.aliasHit ∧ v.extractLsb' 3 1 = BitVec.ofBool s.demuxOut.tagShort ∧
          v.extractLsb' 4 4 = 0#4 ∧ (v.extractLsb' 8 5).toNat = s.demuxOut.handler ∧ v.extractLsb' 13 3 = 0#3 ∧
          (v.extractLsb' 16 8).toNat = s.demuxOut.paramLen ∧
          v.extractLsb' 24 2 = (match s.demuxOut.lenChk with | .none => 0#2 | .ok => 1#2 | .short => 2#2 | .long => 3#2) ∧
          v.extractLsb' 26 2 = 0#2 ∧ (v.extractLsb' 28 3).toNat = s.demuxOut.paramOff ∧ v.extractLsb' 31 1 = 0#1)

/-! ### Registers -/

/-- The fields of STATUS, each at its bits, with the reserved bits 0, in one read. -/
def Obligations.StatusRegisterFields : Prop :=
  ∀ s : State, ∃ v : Word, exec (.rdreg 1#8) s = .next { s with out := .readData v } ∧
    v.extractLsb' 0 2 = (match s.rxState with | .waitSync => 0#2 | .waitLen => 1#2 | .waitPayload => 2#2) ∧
    v.extractLsb' 2 1 = BitVec.ofBool s.rdy ∧
    v.extractLsb' 3 1 = BitVec.ofBool s.txBusy ∧ v.extractLsb' 4 1 = BitVec.ofBool (s.irqEn && s.rdy) ∧
    v.extractLsb' 5 3 = 0#3 ∧ v.extractLsb' 8 8 = s.rxCnt ∧ v.extractLsb' 16 8 = s.rxLen ∧ v.extractLsb' 24 8 = 0#8

/-- RXREAD k answers word k of the ready payload, payload byte 4k + j in lane j, 0 where no packet is ready or the payload is shorter. -/
def Obligations.RxreadAnswersPayloadLanes : Prop :=
  ∀ (s : State) (k : BitVec 6), ∃ v : Word, exec (.rxread k) s = .next { s with out := .readData v } ∧
    ∀ j, j < 4 →
      byteLane v j = if s.rdy = true ∧ 4 * k.toNat + j < s.rdyLen.toNat then byteAt s.rdyBuf (4 * k.toNat + j) else 0#8

/-- RDREG answers the register map: the plain registers, the counters, the two buffer windows, and 0 for write-only registers and unmapped offsets. -/
def Obligations.RdregAnswersRegisterMap : Prop :=
  ∀ (s : State) (w : BitVec 8), ∃ v : Word, exec (.rdreg w) s = .next { s with out := .readData v } ∧
    (w = 0#8 → v.getLsbD 0 = s.wdtEn ∧ v.getLsbD 1 = s.irqEn ∧ v.extractLsb' 2 30 = 0#30) ∧
    (w = 2#8 → v.toNat = s.lastErr.toNat) ∧
    (w = 3#8 → v.toNat = if s.rdy = true then s.rdyLen.toNat else 0) ∧
    (w = 5#8 → v = s.wdtTimeout) ∧
    (w = 8#8 → v.toNat = s.cnt.lineErr.toNat) ∧ (w = 9#8 → v.toNat = s.cnt.lenErr.toNat) ∧
    (w = 10#8 → v.toNat = s.cnt.rxDrop.toNat) ∧ (w = 11#8 → v.toNat = s.cnt.wdt.toNat) ∧
    (w = 12#8 → v.toNat = s.cnt.pkt.toNat) ∧ (w = 13#8 → v.toNat = s.cnt.tagMiss.toNat) ∧
    (w = 14#8 → v.toNat = s.cnt.txDrop.toNat) ∧ (w = 15#8 → v.toNat = s.cnt.txRej.toNat) ∧
    (w = 18#8 → v.toNat = s.crc.toNat) ∧ (w = 19#8 → v = s.idle) ∧ (w = 20#8 → v = s.txTag) ∧
    (w = 1#8 → v = s.statusReg) ∧ (w = 6#8 → exec .demuxread s = exec (.rdreg w) s) ∧
    (∀ k, k < 64 → w.toNat = 64 + k → ∀ j, j < 4 →
      byteLane v j = if s.rdy = true ∧ 4 * k + j < s.rdyLen.toNat then byteAt s.rdyBuf (4 * k + j) else 0#8) ∧
    (∀ k, k < 64 → w.toNat = 128 + k → ∀ j, j < 4 →
      byteLane v j = if 4 * k + j < 250 then byteAt s.txStage (4 * k + j) else 0#8) ∧
    (w ∈ [4#8, 7#8, 16#8, 17#8, 21#8] ∨ (22 ≤ w.toNat ∧ w.toNat < 64) ∨ 192 ≤ w.toNat → v = 0#32)

/-- TXSTAGE k stores the four lanes of the value at bytes 4k to 4k + 3, those below 250 only, and nothing else; TX_STAGE[k] then reads
back the bytes that exist. -/
def Obligations.TxstageStoresAndReadsBack : Prop :=
  ∀ (s : State) (k : BitVec 6) (v : Word), ∃ t, exec (.txstage k v) s = .next t ∧
    t = { s with txStage := t.txStage, out := .writeOk } ∧
    (∀ i, i < 250 →
      byteAt t.txStage i = if i / 4 = k.toNat then byteLane v (i % 4) else byteAt s.txStage i) ∧
    t.regRead (0x80#8 ||| k.zeroExtend 8) =
      if k.toNat < 62 then v else if k.toNat = 62 then v &&& 0x0000FFFF#32 else 0#32

/-- CTRLWR, CONSUME, WDTSET and TXTAG write their elements and nothing else, and are acknowledged. CTRL reads the two enables back,
WDT_EN in bit 0 and IRQ_EN in bit 1, with the other bits 0; both are 0 after reset. -/
def Obligations.ControlWritesSetTheirFields : Prop :=
  State.reset.wdtEn = false ∧ State.reset.irqEn = false ∧
  ∀ (s : State) (v : Word),
    exec (.ctrlwr v) s = .next { s with wdtEn := v.getLsbD 0, irqEn := v.getLsbD 1, out := .writeOk } ∧
      exec (.rdreg 0#8) s =
        .next { s with
          out := .readData ((if s.wdtEn = true then 1#32 else 0#32) ||| (if s.irqEn = true then 2#32 else 0#32)) } ∧
      exec (.consume v) s = .next { s with rdy := false, out := .writeOk } ∧
      exec (.wdtset v) s = .next { s with wdtTimeout := v, out := .writeOk } ∧
      exec (.txtag v) s = .next { s with txTag := v, out := .writeOk }

/-- A CMD write with SOFT_RST set resets the receive framer and idle; with CNT_CLR set it clears every counter and last_err; with both
it does both. Everything else stays: a ready packet, the CRC, the transmit slot. That a write with both bits set is the one row SOFTRST
is the model's reading (log 7). -/
def Obligations.CmdWriteResetsAndClears : Prop :=
  ∀ (s : State) (v : Word),
    (v.getLsbD 0 = true → v.getLsbD 1 = false →
      exec (.softrst v) s =
        .next { s with rxState := .waitSync, rxLen := 0#8, rxCnt := 0#8, idle := 0#32, out := .writeOk }) ∧
    (v.getLsbD 0 = true → v.getLsbD 1 = true →
      exec (.softrst v) s =
        .next { s with
          rxState := .waitSync, rxLen := 0#8, rxCnt := 0#8, idle := 0#32
          cnt := ⟨0#16, 0#16, 0#16, 0#16, 0#16, 0#16, 0#16, 0#16⟩, lastErr := 0#4, out := .writeOk }) ∧
    (v.getLsbD 0 = false → v.getLsbD 1 = true →
      exec (.cntclr v) s =
        .next { s with
          cnt := ⟨0#16, 0#16, 0#16, 0#16, 0#16, 0#16, 0#16, 0#16⟩, lastErr := 0#4, out := .writeOk })

/-- Every host access with a size other than 4 or at an offset that is not a multiple of 4 is a bus error: it decodes to BUSERR, which
sets last_err to 10 and changes nothing else, and the response is an error, with read data 0. -/
def Obligations.BadAccessSetsLastErrOnly : Prop :=
  ∀ (s : State) (off : BitVec 10) (size : Nat), (size ≠ 4 ∨ off.toNat % 4 ≠ 0) →
    exec (.buserr .read off size) s = .next { s with lastErr := 10#4, out := .busError (some 0#32) } ∧
      exec (.buserr .write off size) s = .next { s with lastErr := 10#4, out := .busError none } ∧
      ∀ (st : RxState) (v : Word),
        decodeEvent st (.rd off size) = some (.buserr .read off size) ∧
          decodeEvent st (.wr off size v) = some (.buserr .write off size)

/-- A host access by address reaches the block exactly inside the 1 KiB window at BASE, as an access at its offset; BASE is a multiple
of 0x400. -/
def Obligations.WindowAddressesBecomeOffsets : Prop :=
  Config.base % 0x400 = 0 ∧
    (∀ (addr size : Nat) (kind : AccessKind) (v : Word),
      (busAccess addr size kind v).isSome = true ↔ Config.base ≤ addr ∧ addr < Config.base + 0x400) ∧
    ∀ (off : BitVec 10) (size : Nat) (v : Word),
      busAccess (Config.base + off.toNat) size .read v = some (.rd off size) ∧
        busAccess (Config.base + off.toNat) size .write v = some (.wr off size v)

/-! ### Transmit -/

/-- TXSEND while a frame is in flight is dropped and counted, whatever the count; a free slot rejects and counts more than 250. -/
def Obligations.TxsendDropsOrRejects : Prop :=
  ∀ (s : State) (v : Word),
    (s.txBusy = true →
      exec (.txsend v) s =
        .next { s with cnt := { s.cnt with txDrop := s.cnt.txDrop + 1#16 }, lastErr := 8#4, out := .writeOk }) ∧
    (s.txBusy = false → 250 < v.toNat % 256 →
      exec (.txsend v) s =
        .next { s with cnt := { s.cnt with txRej := s.cnt.txRej + 1#16 }, lastErr := 9#4, out := .writeOk })

/-- TXSEND with the slot free and n = v[7:0] ≤ 250 builds the frame SYNC, 4 + n, the tag's bytes, the n staged bytes, and starts it. -/
def Obligations.TxsendBuildsFrame : Prop :=
  ∀ (s : State) (v : Word) (n : Nat), s.txBusy = false → n = v.toNat % 256 → n ≤ 250 →
    ∃ t, exec (.txsend v) s = .next t ∧
      t = { s with txFrame := t.txFrame, txTotal := BitVec.ofNat 9 (6 + n), txIdx := 0#9, txBusy := true, out := .writeOk } ∧
      byteAt t.txFrame 0 = 0xAA#8 ∧ (byteAt t.txFrame 1).toNat = 4 + n ∧
      (∀ k, k < 4 → byteAt t.txFrame (2 + k) = byteLane s.txTag k) ∧
      (∀ i, i < n → byteAt t.txFrame (6 + i) = byteAt s.txStage i) ∧
      (∀ i, 6 + n ≤ i → byteAt t.txFrame i = byteAt s.txFrame i) ∧
      firstBytes t.txFrame (6 + n) = frameOf (bytesOfWord s.txTag ++ firstBytes s.txStage n)

/-- TXPOP with a frame in flight hands out the byte at tx_idx and advances, and tx_busy falls with the last byte; without a frame in
flight it is refused. -/
def Obligations.TxpopHandsOutNextByte : Prop :=
  ∀ s : State,
    (s.txBusy = true → s.txIdx.toNat < s.txTotal.toNat → s.txTotal.toNat ≤ 256 →
      exec .txpop s =
        .next { s with
          txIdx := s.txIdx + 1#9, txBusy := decide (s.txIdx.toNat + 1 ≠ s.txTotal.toNat)
          out := .txByte (byteAt s.txFrame s.txIdx.toNat) }) ∧
    (s.txBusy = false → exec .txpop s = .refused .txpopWithoutFrame)

/-- The frame in flight leaves byte by byte in index order, and the slot is free after the last byte and not before. -/
def Obligations.FrameLeavesInIndexOrder : Prop :=
  ∀ (s : State) (k : Nat) (rest : List Event), s.Inv → s.txIdx.toNat + k < s.txTotal.toNat →
    s.inbox = List.replicate (k + 1) Event.txpop ++ rest →
    ∃ t, runSteps (k + 1) s = .next t ∧ t.inbox = rest ∧ t.out = .txByte (byteAt s.txFrame (s.txIdx.toNat + k)) ∧
      t.txBusy = decide (s.txIdx.toNat + k + 1 < s.txTotal.toNat)

/-- Loopback: a frame this block sends and receives again, each byte it hands out delivered to it at once, is installed with the
staged tag and parameters as its payload, and the transmit slot is free. -/
def Obligations.SentFrameIsReceivedIntact : Prop :=
  ∀ (s t : State) (v : Word) (n : Nat), s.txBusy = false → s.rxState = .waitSync → s.rdy = false → n = v.toNat % 256 → n ≤ 250 →
    exec (.txsend v) s = .next t →
    ∃ u, loopback (6 + n) t = some u ∧ u.rdy = true ∧ u.readyPayload = bytesOfWord s.txTag ++ firstBytes s.txStage n ∧
      u.txBusy = false ∧ u.rxState = .waitSync ∧ u.cnt.pkt = s.cnt.pkt + 1#16 ∧ u.cnt.rxDrop = s.cnt.rxDrop

/-! ### CRC and presets -/

/-- The CRC step, written out from the rule: the byte is XORed into the low byte, then eight times a right shift, with 0xA001 XORed in
where the bit shifted out is 1. crc16 starts at 0xFFFF and takes the bytes first to last; its check value is 0x4B37. CRCINIT restarts the
register when bit 0 is set and does nothing otherwise; CRCFEED feeds the low byte; CRCREAD answers the register zero-extended and
changes nothing. -/
def Obligations.CrcOperationsOnRegister : Prop :=
  (∀ (c : Crc) (b : Byte),
    crcStep c b =
      Nat.repeat (fun r : BitVec 16 => if r.getLsbD 0 = true then (r >>> 1) ^^^ 0xA001#16 else r >>> 1) 8 (c ^^^ b.zeroExtend 16)) ∧
  crc16 [] = 0xFFFF#16 ∧ (∀ (bytes : List Byte) (b : Byte), crc16 (bytes ++ [b]) = crcStep (crc16 bytes) b) ∧
  crc16 [0x31#8, 0x32#8, 0x33#8, 0x34#8, 0x35#8, 0x36#8, 0x37#8, 0x38#8, 0x39#8] = 0x4B37#16 ∧
  ∀ (s : State) (v : Word),
    exec (.crcinit v) s = .next { s with crc := if v.getLsbD 0 = true then 0xFFFF#16 else s.crc, out := .writeOk } ∧
      exec (.crcfeed v) s = .next { s with crc := crcStep s.crc (v.extractLsb' 0 8), out := .writeOk } ∧
      exec .crcread s = .next { s with out := .readData (BitVec.ofNat 32 s.crc.toNat) }

/-- After CRCINIT and one CRCFEED per byte, the register holds the CRC-16 of the bytes. -/
def Obligations.InitThenFeedsComputeCrc16 : Prop :=
  ∀ (s : State) (v : Word) (bytes : List Byte) (rest : List Event), v.getLsbD 0 = true →
    s.inbox = .wr 0x040#10 4 v :: (bytes.map fun b => Event.wr 0x044#10 4 (b.zeroExtend 32)) ++ rest →
    runSteps (1 + bytes.length) s =
      .next { s with inbox := rest, out := .writeOk, crc := crc16 bytes }

/-- Residue: appending the CRC, low byte first, makes the CRC 0. -/
def Obligations.CrcResidueIsZero : Prop :=
  ∀ m : List Byte, crc16 (m ++ crcBytes (crc16 m)) = 0#16

/-- Changing any one byte of a message, so flipping any one bit, changes its CRC. -/
def Obligations.CrcDetectsOneByteChange : Prop :=
  ∀ (front back : List Byte) (b c : Byte), b ≠ c → crc16 (front ++ b :: back) ≠ crc16 (front ++ c :: back)

/-- An encoded preset is 297 bytes long and passes the check with no version warning. -/
def Obligations.EncodedPresetPassesCheck : Prop :=
  ∀ f : PresetFields, f.wf = true →
    (encodePreset f).length = 297 ∧ presetCheck (encodePreset f) = { verdict := .ok, versionWarn := false }

/-- Checksum sensitivity: changing any one byte of a block that passes, so flipping any one bit, makes it fail. -/
def Obligations.ChangedPresetByteFailsCheck : Prop :=
  ∀ (p : List Byte) (i : Nat) (b : Byte), (presetCheck p).verdict = .ok → i < 297 → p.getD i 0#8 ≠ b →
    (presetCheck (p.set i b)).verdict ≠ .ok

/-- The checks run in the source's order and the first failure decides; a version mismatch alone is a warning. -/
def Obligations.PresetChecksRunInOrder : Prop :=
  ∀ p : List Byte,
    (p.length ≠ 297 → presetCheck p = ⟨.badSize, false⟩) ∧
    (p.length = 297 → p.getD 0 0#8 ≠ 0x50#8 ∨ p.getD 1 0#8 ≠ 0x4D#8 → presetCheck p = ⟨.badMagic, false⟩) ∧
    (p.length = 297 → p.getD 0 0#8 = 0x50#8 → p.getD 1 0#8 = 0x4D#8 →
      (presetCheck p).versionWarn = (p.getD 2 0#8 != 0x02#8) ∧
      ((presetCheck p).verdict = .badCount ↔ p.getD 7 0#8 ≠ 17#8) ∧
      (p.getD 7 0#8 = 17#8 →
        ((presetCheck p).verdict = .ok ↔ p.drop 295 = crcBytes (crc16 (p.take 295))) ∧
        ((presetCheck p).verdict = .badCrc ↔ p.drop 295 ≠ crcBytes (crc16 (p.take 295)))))

/-! ### Reset and simultaneous events -/

/-- HRST gives every element the spec's reset value, whatever the state was. The three buffers the spec leaves unspecified are not
constrained (log 11). That the events not yet taken (log 1), the last answer (log 2, log 11) and the instance's tables (log 9) stay is the
model's choice. -/
def Obligations.HardResetRestoresEveryElement : Prop :=
  ∀ s : State, ∃ t, exec .hrst s = .next t ∧
    t = { s with
      rxState := .waitSync, rxLen := 0#8, rxCnt := 0#8, rdy := false, rdyLen := 0#8, idle := 0#32
      wdtEn := false, irqEn := false, wdtTimeout := Config.wdtTimeoutReset
      cnt := ⟨0#16, 0#16, 0#16, 0#16, 0#16, 0#16, 0#16, 0#16⟩, lastErr := 0#4, crc := 0xFFFF#16, txTag := 0#32
      txStage := t.txStage, txBusy := false, txTotal := 0#9, txIdx := 0#9
      asmBuf := t.asmBuf, rdyBuf := t.rdyBuf, txFrame := t.txFrame, freeCtr := t.freeCtr } ∧
    (∀ i, i < 250 → byteAt t.txStage i = 0#8) ∧
    t.regRead 1#8 = 0#32 ∧ t.regRead 6#8 = 0x00001F00#32 ∧ t.regRead 18#8 = 0x0000FFFF#32 ∧ t.regRead 2#8 = 0#32

/-- A cycle's events take effect in the order HRST alone, else host access, receive event, TXPOP, TICK: exactly the presented ones, each
before every one of a later kind. -/
def Obligations.CycleEventsAreOrdered : Prop :=
  ∀ c : Cycle,
    (c.hrst = true → c.events = [.hrst]) ∧
    (c.hrst = false →
      (∀ e, e ∈ c.events ↔
        (∃ a, c.host = some a ∧ e = a.event) ∨ (∃ r, c.rx = some r ∧ e = r.event) ∨ (c.txpop = true ∧ e = .txpop) ∨
          (c.tick = true ∧ e = .tick)) ∧
      c.events.Pairwise fun a b => a.cycleRank < b.cycleRank)

/-- A CONSUME in the same cycle as the completion of the next frame frees the slot first: the new packet is installed, not dropped. -/
def Obligations.ConsumeInSameCycleFreesSlot : Prop :=
  ∀ (s : State) (b : Byte) (v : Word), s.inbox = [] → s.rdy = true → s.rxState = .waitPayload →
    s.rxCnt.toNat + 1 = s.rxLen.toNat →
    ∃ t, runSteps 2 (s.present { host := some (.wr 0x010#10 4 v), rx := some (.byte b) }) = .next t ∧
      t.rdy = true ∧ t.readyPayload = firstBytes s.asmBuf s.rxCnt.toNat ++ [b] ∧ t.cnt.rxDrop = s.cnt.rxDrop ∧
      t.cnt.pkt = s.cnt.pkt + 1#16
end

