-- ==== Sys2Proof/Laws/Buffers.lean ====
section
/-! SUPPORT. What the buffer operations do, byte by byte: reading, storing one byte, replacing the first bytes. -/

namespace Sys2Proof.Machine

variable {n : Nat}

theorem byteAt_of_lt (buf : Vector Byte n) (i : Nat) (h : i < n) : byteAt buf i = buf[i] := by
  simp [byteAt, List.getD, h]

theorem byteAt_of_ge (buf : Vector Byte n) (i : Nat) (h : n ≤ i) : byteAt buf i = 0#8 := by
  simp [byteAt, List.getD, h]

/-- Two buffers with the same bytes are the same buffer. -/
theorem buffer_ext {a b : Vector Byte n} (h : ∀ i, i < n → byteAt a i = byteAt b i) : a = b := by
  apply Vector.ext
  intro i hi
  rw [← byteAt_of_lt a i hi, ← byteAt_of_lt b i hi, h i hi]

theorem byteAt_setIfInBounds (buf : Vector Byte n) (k i : Nat) (b : Byte) (h : i < n) :
    byteAt (buf.setIfInBounds k b) i = if i = k then b else byteAt buf i := by
  rw [byteAt_of_lt _ _ h, byteAt_of_lt _ _ h, Vector.getElem_setIfInBounds]
  simp [eq_comm]

theorem byteAt_overlay (p : List Byte) (buf : Vector Byte n) (i : Nat) (h : i < n) :
    byteAt (overlay p buf) i = if i < p.length then p.getD i 0#8 else byteAt buf i := by
  rw [byteAt_of_lt _ _ h, byteAt_of_lt _ _ h]
  simp only [overlay, Vector.getElem_mk, List.getElem_toArray, List.getElem_take]
  split
  · rename_i hp
    rw [List.getElem_append_left hp]
    simp [List.getD, hp]
  · rename_i hp
    rw [List.getElem_append_right (by omega)]
    simp only [List.getElem_drop, Vector.getElem_toList]
    congr 1
    omega

/-- Bytes past the replaced ones stay. -/
theorem byteAt_overlay_of_ge (p : List Byte) (buf : Vector Byte n) (i : Nat) (h : p.length ≤ i) :
    byteAt (overlay p buf) i = byteAt buf i := by
  by_cases hi : i < n
  · rw [byteAt_overlay _ _ _ hi, if_neg (by omega)]
  · rw [byteAt_of_ge _ _ (by omega), byteAt_of_ge _ _ (by omega)]

@[simp] theorem firstBytes_length (buf : Vector Byte n) (k : Nat) : (firstBytes buf k).length = min k n := by
  simp [firstBytes]

theorem firstBytes_getD (buf : Vector Byte n) (k i : Nat) (h : i < k) : (firstBytes buf k).getD i 0#8 = byteAt buf i := by
  simp [firstBytes, byteAt, List.getD, h]

/-- The first bytes after replacing them are the replacement. -/
theorem firstBytes_overlay (p : List Byte) (buf : Vector Byte n) (h : p.length ≤ n) :
    firstBytes (overlay p buf) p.length = p := by
  simp only [firstBytes, overlay, Vector.toList, List.take_take, Nat.min_eq_left h, List.take_left']

/-- First bytes depend only on those bytes. -/
theorem firstBytes_congr {a b : Vector Byte n} {k : Nat} (h : ∀ i, i < k → byteAt a i = byteAt b i) :
    firstBytes a k = firstBytes b k := by
  apply List.ext_getElem
  · simp
  · intro i h1 h2
    have hi : i < k := by simp at h1; omega
    have := h i hi
    rwa [← firstBytes_getD a k i hi, ← firstBytes_getD b k i hi, List.getD_eq_getElem _ _ h1, List.getD_eq_getElem _ _ h2] at this

/-- Storing a byte right after the first `k` appends it to them. -/
theorem firstBytes_set_succ (buf : Vector Byte n) (k : Nat) (b : Byte) (h : k < n) :
    firstBytes (buf.setIfInBounds k b) (k + 1) = firstBytes buf k ++ [b] := by
  apply List.ext_getElem
  · simp; omega
  · intro i h1 h2
    have hi : i < n := by simp at h1; omega
    have e := firstBytes_getD (buf.setIfInBounds k b) (k + 1) i (by simp at h1; omega)
    rw [byteAt_setIfInBounds _ _ _ _ hi] at e
    rw [List.getD_eq_getElem _ _ h1] at e
    rw [e, List.getElem_append]
    split
    · rename_i hik
      simp [hik, Nat.min_eq_left (Nat.le_of_lt h)]
    · rename_i hik
      have hlt : i < k := by simp at h1; omega
      have hl : i < (firstBytes buf k).length := by simp; omega
      rw [dif_pos hl, ← firstBytes_getD buf k i hlt, List.getD_eq_getElem _ _ hl]

/-- Replacing the first `k + 1` bytes by the ones already there and one more stores that one. -/
theorem overlay_firstBytes_snoc (buf : Vector Byte n) (k : Nat) (b : Byte) (h : k < n) :
    overlay (firstBytes buf k ++ [b]) buf = buf.setIfInBounds k b := by
  apply buffer_ext
  intro i hi
  rw [byteAt_overlay _ _ _ hi, byteAt_setIfInBounds _ _ _ _ hi]
  have hl : (firstBytes buf k).length = k := by simp; omega
  by_cases hik : i = k
  · subst hik
    rw [if_pos (by simp [hl]), if_pos rfl, List.getD_eq_getElem?_getD, List.getElem?_append_right (by omega), hl]
    simp
  · rw [if_neg hik]
    by_cases hlt : i < k
    · rw [if_pos (by simp; omega), ← firstBytes_getD buf k i hlt]
      simp only [List.getD]
      rw [List.getElem?_append_left (by omega)]
    · rw [if_neg (by simp; omega)]

end Sys2Proof.Machine
end

