-- ==== Sys2Proof/Laws/Crc.lean ====
section
/-! SUPPORT. The CRC step: each shift and each step is injective, so no change of one byte is lost. -/

namespace Sys2Proof.Machine

theorem crcShift_getLsbD (c : Crc) (i : Nat) :
    (crcShift c).getLsbD i = (c.getLsbD (i + 1) ^^ (c.getLsbD 0 && Config.crcPoly.getLsbD i)) := by
  unfold crcShift
  split
  · rename_i h
    rw [BitVec.getLsbD_xor, BitVec.getLsbD_ushiftRight, h, Nat.add_comm]
    simp
  · rename_i h
    rw [BitVec.getLsbD_ushiftRight, Nat.add_comm]
    simp at h
    simp [h]

theorem crcShift_injective : Function.Injective crcShift := by
  intro c d h
  have hb : ∀ i, (c.getLsbD (i + 1) ^^ (c.getLsbD 0 && Config.crcPoly.getLsbD i)) =
      (d.getLsbD (i + 1) ^^ (d.getLsbD 0 && Config.crcPoly.getLsbD i)) := by
    intro i
    rw [← crcShift_getLsbD c i, ← crcShift_getLsbD d i, h]
  have h0 : c.getLsbD 0 = d.getLsbD 0 := by
    have := hb 15
    rw [show Config.crcPoly.getLsbD 15 = true by decide, show c.getLsbD (15 + 1) = false from BitVec.getLsbD_of_ge _ _ (by decide),
      show d.getLsbD (15 + 1) = false from BitVec.getLsbD_of_ge _ _ (by decide)] at this
    simpa using this
  apply BitVec.eq_of_getLsbD_eq
  intro i hi
  cases i with
  | zero => exact h0
  | succ i =>
    have := hb i
    rw [h0] at this
    simpa using this

/-- A step is injective in the register. -/
theorem crcStep_inj_left {c d : Crc} {b : Byte} (h : crcStep c b = crcStep d b) : c = d := by
  have := crcShift_injective.iterate 8 h
  simpa using congrArg (· ^^^ b.zeroExtend 16) this

/-- A step is injective in the byte. -/
theorem crcStep_inj_right {c : Crc} {a b : Byte} (h : crcStep c a = crcStep c b) : a = b := by
  have h1 := crcShift_injective.iterate 8 h
  have h2 : a.zeroExtend 16 = b.zeroExtend 16 := by
    have := congrArg (c ^^^ ·) h1
    simpa [← BitVec.xor_assoc] using this
  have := congrArg BitVec.toNat h2
  apply BitVec.eq_of_toNat_eq
  simp at this
  omega

/-- Feeding the same bytes keeps different registers different. -/
theorem foldl_crcStep_inj (bytes : List Byte) {c d : Crc} (h : bytes.foldl crcStep c = bytes.foldl crcStep d) : c = d := by
  induction bytes generalizing c d with
  | nil => exact h
  | cons b bytes ih => exact crcStep_inj_left (ih h)

/-- `k` shifts of a register whose low `k` bits are 0 shift it right. -/
theorem crcShift_iterate_of_low (k : Nat) (c : Crc) (h : ∀ i, i < k → c.getLsbD i = false) : crcShift^[k] c = c >>> k := by
  induction k generalizing c with
  | zero => simp
  | succ k ih =>
    have h0 : crcShift c = c >>> 1 := by
      unfold crcShift
      rw [if_neg (by rw [h 0 (by omega)]; decide)]
    rw [Function.iterate_succ_apply, h0,
      ih _ (by intro i hi; rw [BitVec.getLsbD_ushiftRight]; exact h _ (by omega)), ← BitVec.shiftRight_add, Nat.add_comm]

/-! ### PresetBinary bytes -/

@[simp] theorem zeroPadded_length (n : Nat) (bytes : List Byte) : (zeroPadded n bytes).length = n := by simp [zeroPadded]

@[simp] theorem effectBytes_length (e : PresetEffect) : (effectBytes e).length = 15 := by simp [effectBytes]

/-- The fields before the checksum are offsets 0 to 294 (30_encoding.md R82). -/
theorem encodeBody_length (f : PresetFields) (h : f.effects.length = 17) : (encodeBody f).length = 295 := by
  have : ∀ l : List PresetEffect, (l.flatMap effectBytes).length = 15 * l.length := by
    intro l
    induction l with
    | nil => rfl
    | cons a l ih =>
      rw [List.flatMap_cons, List.length_append, ih, effectBytes_length]
      simp
      omega
  unfold encodeBody
  simp only [List.length_append, this, zeroPadded_length, h]
  rfl

/-- The stored checksum is the word of the last two bytes, low byte first (44_preset_check.md R203). -/
theorem presetStored_eq_iff {p : List Byte} (h : p.length = 297) (c : Crc) : presetStored p = c ↔ p.drop 295 = crcBytes c := by
  have hd : p.drop 295 = [presetByte p 295, presetByte p 296] := by
    apply List.ext_getElem
    · simp [h]
    · intro i h1 h2
      have : i < 2 := by simpa using h2
      interval_cases i <;> simp [presetByte, List.getD, h]
  rw [hd]
  unfold presetStored
  generalize presetByte p 295 = a
  generalize presetByte p 296 = b
  constructor
  · rintro rfl
    unfold crcBytes
    congr 1
    · apply BitVec.eq_of_getLsbD_eq
      intro i hi
      interval_cases i <;> simp
    · congr 1
      apply BitVec.eq_of_getLsbD_eq
      intro i hi
      interval_cases i <;> simp
  · intro h
    unfold crcBytes at h
    cases h
    apply BitVec.eq_of_getLsbD_eq
    intro i hi
    interval_cases i <;> simp

end Sys2Proof.Machine
end

