-- ==== Sys2Proof/Laws/Word.lean ====
section
/-! SUPPORT. Byte lanes and words are inverse to each other. -/

namespace Sys2Proof

/-- A word is the word of its lanes. -/
theorem wordOfBytes_byteLane (v : Word) : wordOfBytes (byteLane v 0) (byteLane v 1) (byteLane v 2) (byteLane v 3) = v := by
  apply BitVec.eq_of_getLsbD_eq
  intro i hi
  simp only [wordOfBytes, byteLane]
  interval_cases i <;> simp

/-- The lanes of a word are the bytes it is made of. -/
theorem byteLane_wordOfBytes (b0 b1 b2 b3 : Byte) (k : Nat) (hk : k < 4) :
    byteLane (wordOfBytes b0 b1 b2 b3) k = [b0, b1, b2, b3].getD k 0#8 := by
  apply BitVec.eq_of_getLsbD_eq
  intro i hi
  simp only [wordOfBytes, byteLane]
  interval_cases k <;> interval_cases i <;> simp

@[simp] theorem bytesOfWord_length (v : Word) : (bytesOfWord v).length = 4 := rfl

end Sys2Proof
end

