-- ==== Sys2Proof/Laws/Decode.lean ====
section
/-! SUPPORT. What the decoder reads: a tag row's payload, and the row of an admitted host access. -/

namespace Sys2Proof

@[simp] theorem tagPayload_length (t : Word) (params : List Byte) : (tagPayload t params).length = 4 + params.length := by
  simp [tagPayload]

@[simp] theorem tag32_tagPayload (t : Word) (params : List Byte) : tag32 (tagPayload t params) = some t := by
  simp [tagPayload, bytesOfWord, tag32, wordOfBytes_byteLane]

/-- A payload that starts with a row's tag decodes to that row with the rest as its parameters. -/
theorem decodePayload_tagPayload (tbl : Config.Tables) {t : Word} {r : TagRow} (hr : tagRowOf t = some r) (params : List Byte)
    (h : params.length ≤ maxTagParams) : decodePayload tbl (tagPayload t params) = .ok (r.build params) := by
  have hl := tagPayload_length t params
  unfold decodePayload
  rw [if_neg (by omega), if_neg (by simp only [Config.maxPayload, maxTagParams] at *; omega), tag32_tagPayload]
  simp only [Option.bind_some, hr]
  rfl

/-- The decoder's tag words are the catalog's tags, in order. -/
theorem tagRows_patterns : tagRows.map TagRow.pattern = Config.catalogTags := rfl

theorem tagRows_masks : ∀ r ∈ tagRows, r.mask = BitVec.allOnes 32 := by
  simp [tagRows, show (0xFFFFFFFF#32) = BitVec.allOnes 32 from rfl]

/-- A tag word selects no row exactly when the catalog does not hold it. -/
theorem tagRowOf_eq_none_iff (t : Word) : tagRowOf t = none ↔ t ∉ Config.catalogTags := by
  rw [← tagRows_patterns, tagRowOf, List.find?_eq_none, List.mem_map]
  constructor
  · rintro h ⟨r, hr, rfl⟩
    exact h r hr (by rw [tagRows_masks r hr, BitVec.and_allOnes, beq_iff_eq])
  · intro h r hr he
    rw [tagRows_masks r hr, BitVec.and_allOnes, beq_iff_eq] at he
    exact h ⟨r, hr, he.symm⟩

/-- An instance's table holds the catalog. -/
theorem notMem_catalog_of_wf {t : Config.Tables} (ht : t.wf) {w : Word} (h : w ∉ t.tagTable) : w ∉ Config.catalogTags := by
  rw [← ht.1]
  exact fun hm => h (List.mem_of_mem_take hm)

/-- A payload whose 4-byte tag, where it has one, is not in the catalog selects no row. -/
theorem bind_tagRowOf_eq_none {p : List Byte} (h : ∀ w, tag32 p = some w → w ∉ Config.catalogTags) :
    (tag32 p).bind tagRowOf = none := by
  cases hw : tag32 p with
  | none => rfl
  | some w => exact (tagRowOf_eq_none_iff w).2 (h w hw)

/-- A well-formed EQ payload has no 4-byte tag of the table. -/
theorem tag32_eq_notMem {t : Config.Tables} {params : List Byte} (hf : aliasParamsFree t params = true) :
    ∀ w, tag32 (0x45#8 :: 0x51#8 :: params) = some w → w ∉ t.tagTable := by
  intro w hw
  match params, hw, hf with
  | c :: d :: _, hw, hf =>
    cases hw
    simpa [aliasParamsFree] using hf

theorem admitted_iff (off : BitVec 10) (size : Nat) : admitted off size = true ↔ size = 4 ∧ off.toNat % 4 = 0 := by
  have : ∀ off : BitVec 10, (off.extractLsb' 0 2 == 0#2) = true ↔ off.toNat % 4 = 0 := by decide
  simp only [admitted, Bool.and_eq_true, beq_iff_eq] at *
  rw [this]

theorem mask_word_of_aligned (off : BitVec 10) (h : off.toNat % 4 = 0) : off &&& 0x3FC#10 = off := by
  revert off; decide

theorem mask_window_iff (off : BitVec 10) (k : Nat) (hk : k < 4) :
    off &&& 0x300#10 = BitVec.ofNat 10 (0x100 * k) ↔ 0x100 * k ≤ off.toNat ∧ off.toNat < 0x100 * (k + 1) := by
  interval_cases k <;> revert off <;> decide

/-- One row at a time: the first row is tried, then the rest. -/
theorem hostRowOf_cons (r : HostRow) (rs : List HostRow) (off : BitVec 10) (v : Word) :
    hostRowOf (r :: rs) off v =
      if off &&& r.mask = r.pattern ∧ r.dataMatch v = true then some (r.build off v) else hostRowOf rs off v := by
  simp only [hostRowOf, List.find?_cons]
  by_cases h : off &&& r.mask = r.pattern
  · cases hd : r.dataMatch v <;> simp [h]
  · simp [h, beq_eq_false_iff_ne.2 h]

theorem hostRowOf_nil (off : BitVec 10) (v : Word) : hostRowOf [] off v = none := rfl

/-- The row of an admitted write, as a case split on its offset (30_encoding.md R91). -/
theorem hostRowOf_write (off : BitVec 10) (v : Word) (h : off.toNat % 4 = 0) :
    hostRowOf hostWriteRows off v =
      if off = 0x000#10 then some (.ctrlwr v)
      else if off = 0x010#10 then some (.consume v)
      else if off = 0x014#10 then some (.wdtset v)
      else if off = 0x01C#10 then
        (if v.getLsbD 0 = true then some (.softrst v) else if v.getLsbD 1 = true then some (.cntclr v) else none)
      else if off = 0x040#10 then (if v.getLsbD 0 = true then some (.crcinit v) else none)
      else if off = 0x044#10 then some (.crcfeed v)
      else if off = 0x050#10 then some (.txtag v)
      else if off = 0x054#10 then some (.txsend v)
      else if 0x200 ≤ off.toNat ∧ off.toNat < 0x300 then some (.txstage (off.extractLsb' 2 6) v)
      else none := by
  have hw := mask_window_iff off 2 (by decide)
  simp only [Nat.reduceMul, Nat.reduceAdd] at hw
  simp only [hostWriteRows, hostRowOf_cons, hostRowOf_nil, mask_word_of_aligned off h, hw, and_true]
  by_cases hc : off = 0x01C#10
  · subst hc
    simp
  · by_cases hi : off = 0x040#10
    · subst hi
      simp
    · simp [hc, hi]

/-- The row of an admitted read, as a case split on its offset (30_encoding.md R91). -/
theorem hostRowOf_read (off : BitVec 10) (v : Word) (h : off.toNat % 4 = 0) :
    hostRowOf hostReadRows off v =
      if off = 0x048#10 then some .crcread
      else if off = 0x018#10 then some .demuxread
      else if 0x100 ≤ off.toNat ∧ off.toNat < 0x200 then some (.rxread (off.extractLsb' 2 6))
      else some (.rdreg (off.extractLsb' 2 8)) := by
  have hw := mask_window_iff off 1 (by decide)
  simp only [Nat.reduceMul, Nat.reduceAdd] at hw
  simp only [hostReadRows, hostRowOf_cons, hostRowOf_nil, mask_word_of_aligned off h, hw, and_true]
  simp

theorem offOfWord_aligned (w : BitVec 8) : (offOfWord w).toNat % 4 = 0 := by revert w; decide

theorem offOfWord_toNat (w : BitVec 8) : (offOfWord w).toNat = 4 * w.toNat := by revert w; decide

theorem extract_offOfWord (w : BitVec 8) : (offOfWord w).extractLsb' 2 8 = w := by revert w; decide

theorem windowOff_toNat (k : BitVec 6) (c : Nat) (hc : c < 4) :
    (BitVec.ofNat 10 (0x100 * c) ||| offOfWord (k.zeroExtend 8)).toNat = 0x100 * c + 4 * k.toNat := by
  interval_cases c <;> revert k <;> decide

theorem extract_windowOff (k : BitVec 6) (c : Nat) (hc : c < 4) :
    (BitVec.ofNat 10 (0x100 * c) ||| offOfWord (k.zeroExtend 8)).extractLsb' 2 6 = k := by
  interval_cases c <;> revert k <;> decide

end Sys2Proof
end

