-- ==== Sys2Proof/Laws/Demux.lean ====
section
/-! SUPPORT. The decoder's tag rows beside the demultiplexer's tables: what a row encodes to, which handler its tag has, and what a
decoded payload can be. -/

namespace Sys2Proof.Machine

/-- The row a tag word selects holds that word. -/
theorem tagRowOf_some {w : Word} {r : TagRow} (h : tagRowOf w = some r) : r ∈ tagRows ∧ w = r.pattern := by
  have hm := List.mem_of_find?_eq_some h
  refine ⟨hm, ?_⟩
  have := List.find?_some h
  rw [tagRows_masks r hm, BitVec.and_allOnes, beq_iff_eq] at this
  exact this

/-- A row's instruction encodes to its tag and the parameters. -/
theorem encode_tagRow : ∀ r ∈ tagRows, ∀ params, encode (r.build params) = .payload (tagPayload r.pattern params) := by
  simp only [tagRows, List.cons_append, List.nil_append, List.forall_mem_cons]
  repeat' apply And.intro
  all_goals first
    | exact fun _ => rfl
    | (intro r hr; cases hr)

/-- A row's instruction is well formed when its parameters fit, and every receive state selects it. -/
theorem wf_tagRow : ∀ r ∈ tagRows, ∀ params t st,
    (r.build params).wf t = decide (params.length ≤ maxTagParams) ∧ (r.build params).selectedIn st = true := by
  simp only [tagRows, List.cons_append, List.nil_append, List.forall_mem_cons]
  repeat' apply And.intro
  all_goals first
    | exact fun _ _ _ => ⟨rfl, rfl⟩
    | (intro r hr; cases hr)

/-- A payload is its tag and the rest. -/
theorem tagPayload_of_tag32 {p : List Byte} {w : Word} (h : tag32 p = some w) : tagPayload w (p.drop 4) = p := by
  match p, h with
  | b0 :: b1 :: b2 :: b3 :: rest, h =>
    cases h
    simp [tagPayload, bytesOfWord, byteLane_wordOfBytes]

/-- A payload with the 2-byte tag EQ starts with its bytes. -/
theorem cons_of_tag16 {p : List Byte} (h : tag16 p = some 0x5145#16) : ∃ q, p = 0x45#8 :: 0x51#8 :: q := by
  match p, h with
  | b0 :: b1 :: q, h =>
    have h : (b0.zeroExtend 16 ||| b1.zeroExtend 16 <<< 8) = 0x5145#16 := by simpa [tag16] using h
    have e0 : b0 = 0x45#8 := by
      apply BitVec.eq_of_getLsbD_eq
      intro i hi
      have := congrArg (fun x : BitVec 16 => x.getLsbD i) h
      interval_cases i <;> simpa using this
    have e1 : b1 = 0x51#8 := by
      apply BitVec.eq_of_getLsbD_eq
      intro i hi
      have := congrArg (fun x : BitVec 16 => x.getLsbD (8 + i)) h
      interval_cases i <;> simpa using this
    exact ⟨q, by rw [e0, e1]⟩

/-- Everything the decoder can answer for a payload of 1 to 255 bytes: a 4-byte tag's row, EQ, a hit of the instance's own, a miss. -/
theorem decodePayload_cases (t : Config.Tables) (p : List Byte) (h0 : p ≠ []) (h1 : p.length ≤ 255) :
    (∃ w r, tag32 p = some w ∧ tagRowOf w = some r ∧ decodePayload t p = .ok (r.build (p.drop 4))) ∨
      ((∀ w, tag32 p = some w → tagRowOf w = none) ∧
        ((∃ w, tag32 p = some w ∧ w ∈ t.tagTable ∧ decodePayload t p = .error .tableExtension) ∨
          ((∀ w, tag32 p = some w → w ∉ t.tagTable) ∧
            ((max 2 t.aliasParamOffset ≤ p.length ∧ tag16 p = some 0x5145#16 ∧ decodePayload t p = .ok (.eq (p.drop 2))) ∨
              (max 2 t.aliasParamOffset ≤ p.length ∧ tag16 p ≠ some 0x5145#16 ∧
                (∃ a h, tag16 p = some a ∧ t.aliasTable.lookup a = some h) ∧ decodePayload t p = .error .tableExtension) ∨
              ((max 2 t.aliasParamOffset ≤ p.length → ∀ a, tag16 p = some a → a ≠ 0x5145#16 ∧ t.aliasTable.lookup a = none) ∧
                (decodePayload t p = .error .tagShortMiss ∨ decodePayload t p = .error .tagMiss)))))) := by
  have hl : p.length ≠ 0 := fun h => h0 (List.length_eq_zero_iff.1 h)
  unfold decodePayload
  rw [if_neg hl, if_neg (by unfold Config.maxPayload; omega)]
  cases hr : (tag32 p).bind tagRowOf with
  | some r =>
    obtain ⟨w, hw, hr⟩ := Option.bind_eq_some_iff.1 hr
    exact .inl ⟨w, r, hw, hr, rfl⟩
  | none =>
    refine .inr ⟨fun w hw => by simpa [hw] using hr, ?_⟩
    by_cases hx : (tag32 p).any t.tagTable.contains = true
    · obtain ⟨w, hw, hm⟩ := (Option.any_eq_true _ _).1 hx
      exact .inl ⟨w, hw, by simpa using hm, by simp only [if_pos hx]⟩
    · refine .inr ⟨fun w hw hm => hx (by simp [hw, hm]), ?_⟩
      simp only [if_neg hx]
      by_cases he : max 2 t.aliasParamOffset ≤ p.length ∧ tag16 p = some 0x5145#16
      · exact .inl ⟨he.1, he.2, by rw [if_pos he]⟩
      · rw [if_neg he]
        by_cases ha : max 2 t.aliasParamOffset ≤ p.length ∧ (tag16 p).any (fun a => (t.aliasTable.lookup a).isSome) = true
        · obtain ⟨a, ha1, ha2⟩ := (Option.any_eq_true _ _).1 ha.2
          obtain ⟨h, hh⟩ := Option.isSome_iff_exists.1 ha2
          exact .inr (.inl ⟨ha.1, fun h5 => he ⟨ha.1, h5⟩, ⟨a, h, ha1, hh⟩, by rw [if_pos ha]⟩)
        · refine .inr (.inr ⟨fun hm a h16 => ⟨fun h5 => he ⟨hm, h5 ▸ h16⟩, ?_⟩, ?_⟩)
          · cases hn : t.aliasTable.lookup a with
            | none => rfl
            | some h => exact absurd ⟨hm, by simp [h16, hn]⟩ ha
          · rw [if_neg ha]
            split
            · exact .inl rfl
            · exact .inr rfl

/-- What a decoded payload is: a 4-byte tag's row, or the EQ row after every 4-byte tag missed. -/
theorem decodePayload_ok {t : Config.Tables} {p : List Byte} {i : Instr} (h : decodePayload t p = .ok i) :
    p ≠ [] ∧ p.length ≤ 255 ∧
      ((∃ w r, tag32 p = some w ∧ tagRowOf w = some r ∧ i = r.build (p.drop 4)) ∨
        ((∀ w, tag32 p = some w → w ∉ t.tagTable) ∧ max 2 t.aliasParamOffset ≤ p.length ∧ tag16 p = some 0x5145#16 ∧
          i = .eq (p.drop 2))) := by
  have h0 : p ≠ [] := by rintro rfl; cases h
  have h1 : p.length ≤ 255 := by
    by_contra hc
    unfold decodePayload at h
    rw [if_neg (by omega), if_pos (by unfold Config.maxPayload; omega)] at h
    cases h
  refine ⟨h0, h1, ?_⟩
  rcases decodePayload_cases t p h0 h1 with ⟨w, r, hw, hr, hd⟩ | ⟨-, ⟨w, -, -, hd⟩ | ⟨hm, ⟨hl, h5, hd⟩ | ⟨-, -, -, hd⟩ | ⟨-, hd | hd⟩⟩⟩ <;>
    rw [hd] at h <;> cases h
  · exact .inl ⟨w, r, hw, hr, rfl⟩
  · exact .inr ⟨hm, hl, h5, rfl⟩

/-- The demultiplexer has no 4-byte handler for a payload whose tag word is not in the table. -/
theorem tagHandler_eq_none {t : Config.Tables} {p : List Byte} (h : ∀ w, tag32 p = some w → w ∉ t.tagTable) :
    tagHandler t p = none := by
  unfold tagHandler
  cases ht : tag32 p with
  | none => rfl
  | some w =>
    simp only [Option.bind_some, List.findIdx?_eq_none_iff]
    intro x hx
    simp only [beq_eq_false_iff_ne]
    rintro rfl
    exact h x ht hx

/-- A tag of the catalog has its place in the catalog as its handler, in every instance. -/
theorem tagHandler_of_catalog {t : Config.Tables} (ht : t.wf) {p : List Byte} {w : Word} {h : Nat} (hp : tag32 p = some w)
    (hh : Config.catalogTags.findIdx? (· == w) = some h) : tagHandler t p = some h := by
  have he : t.tagTable = Config.catalogTags ++ t.tagTable.drop 29 := by rw [← ht.1, List.take_append_drop]
  rw [tagHandler, hp, Option.bind_some, he, List.findIdx?_append, hh]
  rfl

/-- The alias handler of a payload that reaches the alias parameters. -/
theorem aliasHandler_of_le {t : Config.Tables} {p : List Byte} (h : max 2 t.aliasParamOffset ≤ p.length) :
    aliasHandler t p = (tag16 p).bind fun a => t.aliasTable.lookup a := by
  rw [aliasHandler, if_pos h]

/-- A found entry of the alias table is one of its entries. -/
theorem mem_of_lookup {l : List (BitVec 16 × Nat)} {a : BitVec 16} {h : Nat} (hl : l.lookup a = some h) : (a, h) ∈ l := by
  induction l with
  | nil => cases hl
  | cons e l ih =>
    rw [List.lookup_cons] at hl
    split at hl
    · rename_i hb
      rw [beq_iff_eq] at hb
      cases hl
      exact hb ▸ List.mem_cons_self
    · exact List.mem_cons_of_mem _ (ih hl)

/-- The fields of an instance's result fit DEMUX's fields (43_tag_demux.md R185). -/
theorem demux_bounds {t : Config.Tables} (ht : t.wf) (p : List Byte) (hp : p.length ≤ 255) :
    (demux t p).handler < 32 ∧ (demux t p).paramLen < 256 ∧ (demux t p).paramOff < 8 := by
  obtain ⟨-, hlen, -, hal, hoff, -⟩ := ht
  unfold demux
  split
  · rename_i h hh
    unfold tagHandler at hh
    obtain ⟨w, -, hw⟩ := Option.bind_eq_some_iff.1 hh
    have := (List.findIdx?_eq_some_iff_getElem.1 hw).1
    simp only [demuxFound]
    omega
  · split
    · rename_i h hh
      unfold aliasHandler at hh
      split at hh
      · obtain ⟨a, -, ha⟩ := Option.bind_eq_some_iff.1 hh
        have := hal _ (mem_of_lookup ha)
        simp only [demuxFound]
        omega
      · cases hh
    · simp only [demuxMiss, noHandler]
      omega

end Sys2Proof.Machine
end

