-- ==== Sys2Proof/Laws/State.lean ====
section
/-! SUPPORT. One lemma per field per update of the state, each true by `rfl`, so that no proof unfolds a record update. -/

namespace Sys2Proof.Machine

/-! ### `State.gotoSync` -/

@[simp] theorem State.gotoSync_rxState (s : State) : s.gotoSync.rxState = .waitSync := rfl
@[simp] theorem State.gotoSync_rxLen (s : State) : s.gotoSync.rxLen = 0#8 := rfl
@[simp] theorem State.gotoSync_rxCnt (s : State) : s.gotoSync.rxCnt = 0#8 := rfl
@[simp] theorem State.gotoSync_asmBuf (s : State) : s.gotoSync.asmBuf = s.asmBuf := rfl
@[simp] theorem State.gotoSync_rdy (s : State) : s.gotoSync.rdy = s.rdy := rfl
@[simp] theorem State.gotoSync_rdyLen (s : State) : s.gotoSync.rdyLen = s.rdyLen := rfl
@[simp] theorem State.gotoSync_rdyBuf (s : State) : s.gotoSync.rdyBuf = s.rdyBuf := rfl
@[simp] theorem State.gotoSync_idle (s : State) : s.gotoSync.idle = s.idle := rfl
@[simp] theorem State.gotoSync_wdtEn (s : State) : s.gotoSync.wdtEn = s.wdtEn := rfl
@[simp] theorem State.gotoSync_irqEn (s : State) : s.gotoSync.irqEn = s.irqEn := rfl
@[simp] theorem State.gotoSync_wdtTimeout (s : State) : s.gotoSync.wdtTimeout = s.wdtTimeout := rfl
@[simp] theorem State.gotoSync_cnt (s : State) : s.gotoSync.cnt = s.cnt := rfl
@[simp] theorem State.gotoSync_lastErr (s : State) : s.gotoSync.lastErr = s.lastErr := rfl
@[simp] theorem State.gotoSync_crc (s : State) : s.gotoSync.crc = s.crc := rfl
@[simp] theorem State.gotoSync_txTag (s : State) : s.gotoSync.txTag = s.txTag := rfl
@[simp] theorem State.gotoSync_txStage (s : State) : s.gotoSync.txStage = s.txStage := rfl
@[simp] theorem State.gotoSync_txBusy (s : State) : s.gotoSync.txBusy = s.txBusy := rfl
@[simp] theorem State.gotoSync_txFrame (s : State) : s.gotoSync.txFrame = s.txFrame := rfl
@[simp] theorem State.gotoSync_txTotal (s : State) : s.gotoSync.txTotal = s.txTotal := rfl
@[simp] theorem State.gotoSync_txIdx (s : State) : s.gotoSync.txIdx = s.txIdx := rfl
@[simp] theorem State.gotoSync_inbox (s : State) : s.gotoSync.inbox = s.inbox := rfl
@[simp] theorem State.gotoSync_out (s : State) : s.gotoSync.out = s.out := rfl
@[simp] theorem State.gotoSync_freeCtr (s : State) : s.gotoSync.freeCtr = s.freeCtr := rfl
@[simp] theorem State.gotoSync_tables (s : State) : s.gotoSync.tables = s.tables := rfl

/-! ### `State.clearIdle` -/

@[simp] theorem State.clearIdle_rxState (s : State) : s.clearIdle.rxState = s.rxState := rfl
@[simp] theorem State.clearIdle_rxLen (s : State) : s.clearIdle.rxLen = s.rxLen := rfl
@[simp] theorem State.clearIdle_rxCnt (s : State) : s.clearIdle.rxCnt = s.rxCnt := rfl
@[simp] theorem State.clearIdle_asmBuf (s : State) : s.clearIdle.asmBuf = s.asmBuf := rfl
@[simp] theorem State.clearIdle_rdy (s : State) : s.clearIdle.rdy = s.rdy := rfl
@[simp] theorem State.clearIdle_rdyLen (s : State) : s.clearIdle.rdyLen = s.rdyLen := rfl
@[simp] theorem State.clearIdle_rdyBuf (s : State) : s.clearIdle.rdyBuf = s.rdyBuf := rfl
@[simp] theorem State.clearIdle_idle (s : State) : s.clearIdle.idle = 0#32 := rfl
@[simp] theorem State.clearIdle_wdtEn (s : State) : s.clearIdle.wdtEn = s.wdtEn := rfl
@[simp] theorem State.clearIdle_irqEn (s : State) : s.clearIdle.irqEn = s.irqEn := rfl
@[simp] theorem State.clearIdle_wdtTimeout (s : State) : s.clearIdle.wdtTimeout = s.wdtTimeout := rfl
@[simp] theorem State.clearIdle_cnt (s : State) : s.clearIdle.cnt = s.cnt := rfl
@[simp] theorem State.clearIdle_lastErr (s : State) : s.clearIdle.lastErr = s.lastErr := rfl
@[simp] theorem State.clearIdle_crc (s : State) : s.clearIdle.crc = s.crc := rfl
@[simp] theorem State.clearIdle_txTag (s : State) : s.clearIdle.txTag = s.txTag := rfl
@[simp] theorem State.clearIdle_txStage (s : State) : s.clearIdle.txStage = s.txStage := rfl
@[simp] theorem State.clearIdle_txBusy (s : State) : s.clearIdle.txBusy = s.txBusy := rfl
@[simp] theorem State.clearIdle_txFrame (s : State) : s.clearIdle.txFrame = s.txFrame := rfl
@[simp] theorem State.clearIdle_txTotal (s : State) : s.clearIdle.txTotal = s.txTotal := rfl
@[simp] theorem State.clearIdle_txIdx (s : State) : s.clearIdle.txIdx = s.txIdx := rfl
@[simp] theorem State.clearIdle_inbox (s : State) : s.clearIdle.inbox = s.inbox := rfl
@[simp] theorem State.clearIdle_out (s : State) : s.clearIdle.out = s.out := rfl
@[simp] theorem State.clearIdle_freeCtr (s : State) : s.clearIdle.freeCtr = s.freeCtr := rfl
@[simp] theorem State.clearIdle_tables (s : State) : s.clearIdle.tables = s.tables := rfl

/-! ### `State.respond` -/

@[simp] theorem State.respond_rxState (s : State) (o : Output) : (s.respond o).rxState = s.rxState := rfl
@[simp] theorem State.respond_rxLen (s : State) (o : Output) : (s.respond o).rxLen = s.rxLen := rfl
@[simp] theorem State.respond_rxCnt (s : State) (o : Output) : (s.respond o).rxCnt = s.rxCnt := rfl
@[simp] theorem State.respond_asmBuf (s : State) (o : Output) : (s.respond o).asmBuf = s.asmBuf := rfl
@[simp] theorem State.respond_rdy (s : State) (o : Output) : (s.respond o).rdy = s.rdy := rfl
@[simp] theorem State.respond_rdyLen (s : State) (o : Output) : (s.respond o).rdyLen = s.rdyLen := rfl
@[simp] theorem State.respond_rdyBuf (s : State) (o : Output) : (s.respond o).rdyBuf = s.rdyBuf := rfl
@[simp] theorem State.respond_idle (s : State) (o : Output) : (s.respond o).idle = s.idle := rfl
@[simp] theorem State.respond_wdtEn (s : State) (o : Output) : (s.respond o).wdtEn = s.wdtEn := rfl
@[simp] theorem State.respond_irqEn (s : State) (o : Output) : (s.respond o).irqEn = s.irqEn := rfl
@[simp] theorem State.respond_wdtTimeout (s : State) (o : Output) : (s.respond o).wdtTimeout = s.wdtTimeout := rfl
@[simp] theorem State.respond_cnt (s : State) (o : Output) : (s.respond o).cnt = s.cnt := rfl
@[simp] theorem State.respond_lastErr (s : State) (o : Output) : (s.respond o).lastErr = s.lastErr := rfl
@[simp] theorem State.respond_crc (s : State) (o : Output) : (s.respond o).crc = s.crc := rfl
@[simp] theorem State.respond_txTag (s : State) (o : Output) : (s.respond o).txTag = s.txTag := rfl
@[simp] theorem State.respond_txStage (s : State) (o : Output) : (s.respond o).txStage = s.txStage := rfl
@[simp] theorem State.respond_txBusy (s : State) (o : Output) : (s.respond o).txBusy = s.txBusy := rfl
@[simp] theorem State.respond_txFrame (s : State) (o : Output) : (s.respond o).txFrame = s.txFrame := rfl
@[simp] theorem State.respond_txTotal (s : State) (o : Output) : (s.respond o).txTotal = s.txTotal := rfl
@[simp] theorem State.respond_txIdx (s : State) (o : Output) : (s.respond o).txIdx = s.txIdx := rfl
@[simp] theorem State.respond_inbox (s : State) (o : Output) : (s.respond o).inbox = s.inbox := rfl
@[simp] theorem State.respond_out (s : State) (o : Output) : (s.respond o).out = o := rfl
@[simp] theorem State.respond_freeCtr (s : State) (o : Output) : (s.respond o).freeCtr = s.freeCtr := rfl
@[simp] theorem State.respond_tables (s : State) (o : Output) : (s.respond o).tables = s.tables := rfl

/-! ### `State.raise` -/

@[simp] theorem State.raise_rxState (s : State) (e : ErrEvent) : (s.raise e).rxState = s.rxState := rfl
@[simp] theorem State.raise_rxLen (s : State) (e : ErrEvent) : (s.raise e).rxLen = s.rxLen := rfl
@[simp] theorem State.raise_rxCnt (s : State) (e : ErrEvent) : (s.raise e).rxCnt = s.rxCnt := rfl
@[simp] theorem State.raise_asmBuf (s : State) (e : ErrEvent) : (s.raise e).asmBuf = s.asmBuf := rfl
@[simp] theorem State.raise_rdy (s : State) (e : ErrEvent) : (s.raise e).rdy = s.rdy := rfl
@[simp] theorem State.raise_rdyLen (s : State) (e : ErrEvent) : (s.raise e).rdyLen = s.rdyLen := rfl
@[simp] theorem State.raise_rdyBuf (s : State) (e : ErrEvent) : (s.raise e).rdyBuf = s.rdyBuf := rfl
@[simp] theorem State.raise_idle (s : State) (e : ErrEvent) : (s.raise e).idle = s.idle := rfl
@[simp] theorem State.raise_wdtEn (s : State) (e : ErrEvent) : (s.raise e).wdtEn = s.wdtEn := rfl
@[simp] theorem State.raise_irqEn (s : State) (e : ErrEvent) : (s.raise e).irqEn = s.irqEn := rfl
@[simp] theorem State.raise_wdtTimeout (s : State) (e : ErrEvent) : (s.raise e).wdtTimeout = s.wdtTimeout := rfl
@[simp] theorem State.raise_cnt (s : State) (e : ErrEvent) : (s.raise e).cnt = s.cnt.count e := rfl
@[simp] theorem State.raise_lastErr (s : State) (e : ErrEvent) : (s.raise e).lastErr = e.code := rfl
@[simp] theorem State.raise_crc (s : State) (e : ErrEvent) : (s.raise e).crc = s.crc := rfl
@[simp] theorem State.raise_txTag (s : State) (e : ErrEvent) : (s.raise e).txTag = s.txTag := rfl
@[simp] theorem State.raise_txStage (s : State) (e : ErrEvent) : (s.raise e).txStage = s.txStage := rfl
@[simp] theorem State.raise_txBusy (s : State) (e : ErrEvent) : (s.raise e).txBusy = s.txBusy := rfl
@[simp] theorem State.raise_txFrame (s : State) (e : ErrEvent) : (s.raise e).txFrame = s.txFrame := rfl
@[simp] theorem State.raise_txTotal (s : State) (e : ErrEvent) : (s.raise e).txTotal = s.txTotal := rfl
@[simp] theorem State.raise_txIdx (s : State) (e : ErrEvent) : (s.raise e).txIdx = s.txIdx := rfl
@[simp] theorem State.raise_inbox (s : State) (e : ErrEvent) : (s.raise e).inbox = s.inbox := rfl
@[simp] theorem State.raise_out (s : State) (e : ErrEvent) : (s.raise e).out = s.out := rfl
@[simp] theorem State.raise_freeCtr (s : State) (e : ErrEvent) : (s.raise e).freeCtr = s.freeCtr := rfl
@[simp] theorem State.raise_tables (s : State) (e : ErrEvent) : (s.raise e).tables = s.tables := rfl

/-! ### `State.clearCounters` -/

@[simp] theorem State.clearCounters_rxState (s : State) : s.clearCounters.rxState = s.rxState := rfl
@[simp] theorem State.clearCounters_rxLen (s : State) : s.clearCounters.rxLen = s.rxLen := rfl
@[simp] theorem State.clearCounters_rxCnt (s : State) : s.clearCounters.rxCnt = s.rxCnt := rfl
@[simp] theorem State.clearCounters_asmBuf (s : State) : s.clearCounters.asmBuf = s.asmBuf := rfl
@[simp] theorem State.clearCounters_rdy (s : State) : s.clearCounters.rdy = s.rdy := rfl
@[simp] theorem State.clearCounters_rdyLen (s : State) : s.clearCounters.rdyLen = s.rdyLen := rfl
@[simp] theorem State.clearCounters_rdyBuf (s : State) : s.clearCounters.rdyBuf = s.rdyBuf := rfl
@[simp] theorem State.clearCounters_idle (s : State) : s.clearCounters.idle = s.idle := rfl
@[simp] theorem State.clearCounters_wdtEn (s : State) : s.clearCounters.wdtEn = s.wdtEn := rfl
@[simp] theorem State.clearCounters_irqEn (s : State) : s.clearCounters.irqEn = s.irqEn := rfl
@[simp] theorem State.clearCounters_wdtTimeout (s : State) : s.clearCounters.wdtTimeout = s.wdtTimeout := rfl
@[simp] theorem State.clearCounters_cnt (s : State) : s.clearCounters.cnt = {} := rfl
@[simp] theorem State.clearCounters_lastErr (s : State) : s.clearCounters.lastErr = 0#4 := rfl
@[simp] theorem State.clearCounters_crc (s : State) : s.clearCounters.crc = s.crc := rfl
@[simp] theorem State.clearCounters_txTag (s : State) : s.clearCounters.txTag = s.txTag := rfl
@[simp] theorem State.clearCounters_txStage (s : State) : s.clearCounters.txStage = s.txStage := rfl
@[simp] theorem State.clearCounters_txBusy (s : State) : s.clearCounters.txBusy = s.txBusy := rfl
@[simp] theorem State.clearCounters_txFrame (s : State) : s.clearCounters.txFrame = s.txFrame := rfl
@[simp] theorem State.clearCounters_txTotal (s : State) : s.clearCounters.txTotal = s.txTotal := rfl
@[simp] theorem State.clearCounters_txIdx (s : State) : s.clearCounters.txIdx = s.txIdx := rfl
@[simp] theorem State.clearCounters_inbox (s : State) : s.clearCounters.inbox = s.inbox := rfl
@[simp] theorem State.clearCounters_out (s : State) : s.clearCounters.out = s.out := rfl
@[simp] theorem State.clearCounters_freeCtr (s : State) : s.clearCounters.freeCtr = s.freeCtr := rfl
@[simp] theorem State.clearCounters_tables (s : State) : s.clearCounters.tables = s.tables := rfl

/-! ### `State.install` -/

@[simp] theorem State.install_rxState (s : State) (p : List Byte) : (s.install p).rxState = s.rxState := rfl
@[simp] theorem State.install_rxLen (s : State) (p : List Byte) : (s.install p).rxLen = s.rxLen := rfl
@[simp] theorem State.install_rxCnt (s : State) (p : List Byte) : (s.install p).rxCnt = s.rxCnt := rfl
@[simp] theorem State.install_asmBuf (s : State) (p : List Byte) : (s.install p).asmBuf = s.asmBuf := rfl
@[simp] theorem State.install_rdy (s : State) (p : List Byte) : (s.install p).rdy = true := rfl
@[simp] theorem State.install_rdyLen (s : State) (p : List Byte) : (s.install p).rdyLen = BitVec.ofNat 8 p.length := rfl
@[simp] theorem State.install_rdyBuf (s : State) (p : List Byte) : (s.install p).rdyBuf = overlay p s.rdyBuf := rfl
@[simp] theorem State.install_idle (s : State) (p : List Byte) : (s.install p).idle = s.idle := rfl
@[simp] theorem State.install_wdtEn (s : State) (p : List Byte) : (s.install p).wdtEn = s.wdtEn := rfl
@[simp] theorem State.install_irqEn (s : State) (p : List Byte) : (s.install p).irqEn = s.irqEn := rfl
@[simp] theorem State.install_wdtTimeout (s : State) (p : List Byte) : (s.install p).wdtTimeout = s.wdtTimeout := rfl
@[simp] theorem State.install_cnt (s : State) (p : List Byte) : (s.install p).cnt = { s.cnt with pkt := inc16 s.cnt.pkt } := rfl
@[simp] theorem State.install_lastErr (s : State) (p : List Byte) : (s.install p).lastErr = s.lastErr := rfl
@[simp] theorem State.install_crc (s : State) (p : List Byte) : (s.install p).crc = s.crc := rfl
@[simp] theorem State.install_txTag (s : State) (p : List Byte) : (s.install p).txTag = s.txTag := rfl
@[simp] theorem State.install_txStage (s : State) (p : List Byte) : (s.install p).txStage = s.txStage := rfl
@[simp] theorem State.install_txBusy (s : State) (p : List Byte) : (s.install p).txBusy = s.txBusy := rfl
@[simp] theorem State.install_txFrame (s : State) (p : List Byte) : (s.install p).txFrame = s.txFrame := rfl
@[simp] theorem State.install_txTotal (s : State) (p : List Byte) : (s.install p).txTotal = s.txTotal := rfl
@[simp] theorem State.install_txIdx (s : State) (p : List Byte) : (s.install p).txIdx = s.txIdx := rfl
@[simp] theorem State.install_inbox (s : State) (p : List Byte) : (s.install p).inbox = s.inbox := rfl
@[simp] theorem State.install_out (s : State) (p : List Byte) : (s.install p).out = s.out := rfl
@[simp] theorem State.install_freeCtr (s : State) (p : List Byte) : (s.install p).freeCtr = s.freeCtr := rfl
@[simp] theorem State.install_tables (s : State) (p : List Byte) : (s.install p).tables = s.tables := rfl

/-! ### `State.take` -/

@[simp] theorem State.take_rxState (s : State) (rest : List Event) : (s.take rest).rxState = s.rxState := rfl
@[simp] theorem State.take_rxLen (s : State) (rest : List Event) : (s.take rest).rxLen = s.rxLen := rfl
@[simp] theorem State.take_rxCnt (s : State) (rest : List Event) : (s.take rest).rxCnt = s.rxCnt := rfl
@[simp] theorem State.take_asmBuf (s : State) (rest : List Event) : (s.take rest).asmBuf = s.asmBuf := rfl
@[simp] theorem State.take_rdy (s : State) (rest : List Event) : (s.take rest).rdy = s.rdy := rfl
@[simp] theorem State.take_rdyLen (s : State) (rest : List Event) : (s.take rest).rdyLen = s.rdyLen := rfl
@[simp] theorem State.take_rdyBuf (s : State) (rest : List Event) : (s.take rest).rdyBuf = s.rdyBuf := rfl
@[simp] theorem State.take_idle (s : State) (rest : List Event) : (s.take rest).idle = s.idle := rfl
@[simp] theorem State.take_wdtEn (s : State) (rest : List Event) : (s.take rest).wdtEn = s.wdtEn := rfl
@[simp] theorem State.take_irqEn (s : State) (rest : List Event) : (s.take rest).irqEn = s.irqEn := rfl
@[simp] theorem State.take_wdtTimeout (s : State) (rest : List Event) : (s.take rest).wdtTimeout = s.wdtTimeout := rfl
@[simp] theorem State.take_cnt (s : State) (rest : List Event) : (s.take rest).cnt = s.cnt := rfl
@[simp] theorem State.take_lastErr (s : State) (rest : List Event) : (s.take rest).lastErr = s.lastErr := rfl
@[simp] theorem State.take_crc (s : State) (rest : List Event) : (s.take rest).crc = s.crc := rfl
@[simp] theorem State.take_txTag (s : State) (rest : List Event) : (s.take rest).txTag = s.txTag := rfl
@[simp] theorem State.take_txStage (s : State) (rest : List Event) : (s.take rest).txStage = s.txStage := rfl
@[simp] theorem State.take_txBusy (s : State) (rest : List Event) : (s.take rest).txBusy = s.txBusy := rfl
@[simp] theorem State.take_txFrame (s : State) (rest : List Event) : (s.take rest).txFrame = s.txFrame := rfl
@[simp] theorem State.take_txTotal (s : State) (rest : List Event) : (s.take rest).txTotal = s.txTotal := rfl
@[simp] theorem State.take_txIdx (s : State) (rest : List Event) : (s.take rest).txIdx = s.txIdx := rfl
@[simp] theorem State.take_inbox (s : State) (rest : List Event) : (s.take rest).inbox = rest := rfl
@[simp] theorem State.take_out (s : State) (rest : List Event) : (s.take rest).out = .silent := rfl
@[simp] theorem State.take_freeCtr (s : State) (rest : List Event) : (s.take rest).freeCtr = s.freeCtr := rfl
@[simp] theorem State.take_tables (s : State) (rest : List Event) : (s.take rest).tables = s.tables := rfl

/-! ### `State.storePayloadByte` -/

@[simp] theorem State.storePayloadByte_rxState (s : State) (b : Byte) : (s.storePayloadByte b).rxState = s.rxState := rfl
@[simp] theorem State.storePayloadByte_rxLen (s : State) (b : Byte) : (s.storePayloadByte b).rxLen = s.rxLen := rfl
@[simp] theorem State.storePayloadByte_rxCnt (s : State) (b : Byte) : (s.storePayloadByte b).rxCnt = s.rxCnt + 1#8 := rfl
@[simp] theorem State.storePayloadByte_asmBuf (s : State) (b : Byte) : (s.storePayloadByte b).asmBuf = s.asmBuf.setIfInBounds s.rxCnt.toNat b := rfl
@[simp] theorem State.storePayloadByte_rdy (s : State) (b : Byte) : (s.storePayloadByte b).rdy = s.rdy := rfl
@[simp] theorem State.storePayloadByte_rdyLen (s : State) (b : Byte) : (s.storePayloadByte b).rdyLen = s.rdyLen := rfl
@[simp] theorem State.storePayloadByte_rdyBuf (s : State) (b : Byte) : (s.storePayloadByte b).rdyBuf = s.rdyBuf := rfl
@[simp] theorem State.storePayloadByte_idle (s : State) (b : Byte) : (s.storePayloadByte b).idle = 0#32 := rfl
@[simp] theorem State.storePayloadByte_wdtEn (s : State) (b : Byte) : (s.storePayloadByte b).wdtEn = s.wdtEn := rfl
@[simp] theorem State.storePayloadByte_irqEn (s : State) (b : Byte) : (s.storePayloadByte b).irqEn = s.irqEn := rfl
@[simp] theorem State.storePayloadByte_wdtTimeout (s : State) (b : Byte) : (s.storePayloadByte b).wdtTimeout = s.wdtTimeout := rfl
@[simp] theorem State.storePayloadByte_cnt (s : State) (b : Byte) : (s.storePayloadByte b).cnt = s.cnt := rfl
@[simp] theorem State.storePayloadByte_lastErr (s : State) (b : Byte) : (s.storePayloadByte b).lastErr = s.lastErr := rfl
@[simp] theorem State.storePayloadByte_crc (s : State) (b : Byte) : (s.storePayloadByte b).crc = s.crc := rfl
@[simp] theorem State.storePayloadByte_txTag (s : State) (b : Byte) : (s.storePayloadByte b).txTag = s.txTag := rfl
@[simp] theorem State.storePayloadByte_txStage (s : State) (b : Byte) : (s.storePayloadByte b).txStage = s.txStage := rfl
@[simp] theorem State.storePayloadByte_txBusy (s : State) (b : Byte) : (s.storePayloadByte b).txBusy = s.txBusy := rfl
@[simp] theorem State.storePayloadByte_txFrame (s : State) (b : Byte) : (s.storePayloadByte b).txFrame = s.txFrame := rfl
@[simp] theorem State.storePayloadByte_txTotal (s : State) (b : Byte) : (s.storePayloadByte b).txTotal = s.txTotal := rfl
@[simp] theorem State.storePayloadByte_txIdx (s : State) (b : Byte) : (s.storePayloadByte b).txIdx = s.txIdx := rfl
@[simp] theorem State.storePayloadByte_inbox (s : State) (b : Byte) : (s.storePayloadByte b).inbox = s.inbox := rfl
@[simp] theorem State.storePayloadByte_out (s : State) (b : Byte) : (s.storePayloadByte b).out = s.out := rfl
@[simp] theorem State.storePayloadByte_freeCtr (s : State) (b : Byte) : (s.storePayloadByte b).freeCtr = s.freeCtr := rfl
@[simp] theorem State.storePayloadByte_tables (s : State) (b : Byte) : (s.storePayloadByte b).tables = s.tables := rfl

/-! ### `State.popByte` -/

@[simp] theorem State.popByte_rxState (s : State) : s.popByte.rxState = s.rxState := rfl
@[simp] theorem State.popByte_rxLen (s : State) : s.popByte.rxLen = s.rxLen := rfl
@[simp] theorem State.popByte_rxCnt (s : State) : s.popByte.rxCnt = s.rxCnt := rfl
@[simp] theorem State.popByte_asmBuf (s : State) : s.popByte.asmBuf = s.asmBuf := rfl
@[simp] theorem State.popByte_rdy (s : State) : s.popByte.rdy = s.rdy := rfl
@[simp] theorem State.popByte_rdyLen (s : State) : s.popByte.rdyLen = s.rdyLen := rfl
@[simp] theorem State.popByte_rdyBuf (s : State) : s.popByte.rdyBuf = s.rdyBuf := rfl
@[simp] theorem State.popByte_idle (s : State) : s.popByte.idle = s.idle := rfl
@[simp] theorem State.popByte_wdtEn (s : State) : s.popByte.wdtEn = s.wdtEn := rfl
@[simp] theorem State.popByte_irqEn (s : State) : s.popByte.irqEn = s.irqEn := rfl
@[simp] theorem State.popByte_wdtTimeout (s : State) : s.popByte.wdtTimeout = s.wdtTimeout := rfl
@[simp] theorem State.popByte_cnt (s : State) : s.popByte.cnt = s.cnt := rfl
@[simp] theorem State.popByte_lastErr (s : State) : s.popByte.lastErr = s.lastErr := rfl
@[simp] theorem State.popByte_crc (s : State) : s.popByte.crc = s.crc := rfl
@[simp] theorem State.popByte_txTag (s : State) : s.popByte.txTag = s.txTag := rfl
@[simp] theorem State.popByte_txStage (s : State) : s.popByte.txStage = s.txStage := rfl
@[simp] theorem State.popByte_txBusy (s : State) : s.popByte.txBusy = (s.txIdx + 1#9 != s.txTotal) := rfl
@[simp] theorem State.popByte_txFrame (s : State) : s.popByte.txFrame = s.txFrame := rfl
@[simp] theorem State.popByte_txTotal (s : State) : s.popByte.txTotal = s.txTotal := rfl
@[simp] theorem State.popByte_txIdx (s : State) : s.popByte.txIdx = s.txIdx + 1#9 := rfl
@[simp] theorem State.popByte_inbox (s : State) : s.popByte.inbox = s.inbox := rfl
@[simp] theorem State.popByte_out (s : State) : s.popByte.out = s.out := rfl
@[simp] theorem State.popByte_freeCtr (s : State) : s.popByte.freeCtr = s.freeCtr := rfl
@[simp] theorem State.popByte_tables (s : State) : s.popByte.tables = s.tables := rfl

/-! ### `State.softReset` -/

@[simp] theorem State.softReset_rxState (s : State) : s.softReset.rxState = .waitSync := rfl
@[simp] theorem State.softReset_rxLen (s : State) : s.softReset.rxLen = 0#8 := rfl
@[simp] theorem State.softReset_rxCnt (s : State) : s.softReset.rxCnt = 0#8 := rfl
@[simp] theorem State.softReset_asmBuf (s : State) : s.softReset.asmBuf = s.asmBuf := rfl
@[simp] theorem State.softReset_rdy (s : State) : s.softReset.rdy = s.rdy := rfl
@[simp] theorem State.softReset_rdyLen (s : State) : s.softReset.rdyLen = s.rdyLen := rfl
@[simp] theorem State.softReset_rdyBuf (s : State) : s.softReset.rdyBuf = s.rdyBuf := rfl
@[simp] theorem State.softReset_idle (s : State) : s.softReset.idle = 0#32 := rfl
@[simp] theorem State.softReset_wdtEn (s : State) : s.softReset.wdtEn = s.wdtEn := rfl
@[simp] theorem State.softReset_irqEn (s : State) : s.softReset.irqEn = s.irqEn := rfl
@[simp] theorem State.softReset_wdtTimeout (s : State) : s.softReset.wdtTimeout = s.wdtTimeout := rfl
@[simp] theorem State.softReset_cnt (s : State) : s.softReset.cnt = s.cnt := rfl
@[simp] theorem State.softReset_lastErr (s : State) : s.softReset.lastErr = s.lastErr := rfl
@[simp] theorem State.softReset_crc (s : State) : s.softReset.crc = s.crc := rfl
@[simp] theorem State.softReset_txTag (s : State) : s.softReset.txTag = s.txTag := rfl
@[simp] theorem State.softReset_txStage (s : State) : s.softReset.txStage = s.txStage := rfl
@[simp] theorem State.softReset_txBusy (s : State) : s.softReset.txBusy = s.txBusy := rfl
@[simp] theorem State.softReset_txFrame (s : State) : s.softReset.txFrame = s.txFrame := rfl
@[simp] theorem State.softReset_txTotal (s : State) : s.softReset.txTotal = s.txTotal := rfl
@[simp] theorem State.softReset_txIdx (s : State) : s.softReset.txIdx = s.txIdx := rfl
@[simp] theorem State.softReset_inbox (s : State) : s.softReset.inbox = s.inbox := rfl
@[simp] theorem State.softReset_out (s : State) : s.softReset.out = s.out := rfl
@[simp] theorem State.softReset_freeCtr (s : State) : s.softReset.freeCtr = s.freeCtr := rfl
@[simp] theorem State.softReset_tables (s : State) : s.softReset.tables = s.tables := rfl

/-! ### `State.hardReset` -/

@[simp] theorem State.hardReset_rxState (s : State) : s.hardReset.rxState = .waitSync := rfl
@[simp] theorem State.hardReset_rxLen (s : State) : s.hardReset.rxLen = 0#8 := rfl
@[simp] theorem State.hardReset_rxCnt (s : State) : s.hardReset.rxCnt = 0#8 := rfl
@[simp] theorem State.hardReset_asmBuf (s : State) : s.hardReset.asmBuf = freeBytes .asmBuf s.freeCtr 255 := rfl
@[simp] theorem State.hardReset_rdy (s : State) : s.hardReset.rdy = false := rfl
@[simp] theorem State.hardReset_rdyLen (s : State) : s.hardReset.rdyLen = 0#8 := rfl
@[simp] theorem State.hardReset_rdyBuf (s : State) : s.hardReset.rdyBuf = freeBytes .rdyBuf s.freeCtr 255 := rfl
@[simp] theorem State.hardReset_idle (s : State) : s.hardReset.idle = 0#32 := rfl
@[simp] theorem State.hardReset_wdtEn (s : State) : s.hardReset.wdtEn = false := rfl
@[simp] theorem State.hardReset_irqEn (s : State) : s.hardReset.irqEn = false := rfl
@[simp] theorem State.hardReset_wdtTimeout (s : State) : s.hardReset.wdtTimeout = Config.wdtTimeoutReset := rfl
@[simp] theorem State.hardReset_cnt (s : State) : s.hardReset.cnt = {} := rfl
@[simp] theorem State.hardReset_lastErr (s : State) : s.hardReset.lastErr = 0#4 := rfl
@[simp] theorem State.hardReset_crc (s : State) : s.hardReset.crc = Config.crcInit := rfl
@[simp] theorem State.hardReset_txTag (s : State) : s.hardReset.txTag = 0#32 := rfl
@[simp] theorem State.hardReset_txStage (s : State) : s.hardReset.txStage = Vector.replicate 250 0#8 := rfl
@[simp] theorem State.hardReset_txBusy (s : State) : s.hardReset.txBusy = false := rfl
@[simp] theorem State.hardReset_txFrame (s : State) : s.hardReset.txFrame = freeBytes .txFrame s.freeCtr 256 := rfl
@[simp] theorem State.hardReset_txTotal (s : State) : s.hardReset.txTotal = 0#9 := rfl
@[simp] theorem State.hardReset_txIdx (s : State) : s.hardReset.txIdx = 0#9 := rfl
@[simp] theorem State.hardReset_inbox (s : State) : s.hardReset.inbox = s.inbox := rfl
@[simp] theorem State.hardReset_out (s : State) : s.hardReset.out = s.out := rfl
@[simp] theorem State.hardReset_freeCtr (s : State) : s.hardReset.freeCtr = s.freeCtr + 1 := rfl
@[simp] theorem State.hardReset_tables (s : State) : s.hardReset.tables = s.tables := rfl

end Sys2Proof.Machine
end

