-- ==== Sys2Proof/Laws/Ops.lean ====
section
/-! SUPPORT. What each shared operation can do, said once: the hand-off of a completed payload, the watchdog check, the send request,
the CMD write and a bus read. -/

namespace Sys2Proof.Machine

/-- Every error event's code is one of 60_exceptions.md R220: 1 to 10. -/
theorem ErrEvent.code_range (e : ErrEvent) : 1 ≤ e.code.toNat ∧ e.code.toNat ≤ 10 := by
  cases e with
  | lineError k => cases k <;> decide
  | _ => decide

/-! ### The hand-off (40_rx_framer.md R106) -/

/-- The installed payload is the ready packet's payload. -/
theorem State.readyPayload_install (s : State) (p : List Byte) (h : p.length ≤ 255) : (s.install p).readyPayload = p := by
  have hl : (BitVec.ofNat 8 p.length).toNat = p.length := by simp; omega
  simp only [State.readyPayload, State.install_rdyBuf, State.install_rdyLen, hl]
  exact firstBytes_overlay p s.rdyBuf h

/-- While a packet is ready, the completed payload is dropped. -/
theorem State.complete_of_ready (s : State) (p : List Byte) (h : s.rdy = true) :
    s.complete p = (s.raise .rxDrop).gotoSync := by
  simp [State.complete, h]

/-- With the slot free, the completed payload is installed, and a tag miss is recorded. -/
theorem State.complete_of_free (s : State) (p : List Byte) (hp : p.length ≤ 255) (h : s.rdy = false) :
    s.complete p =
      (if (demux s.tables p).hit then s.install p else (s.install p).raise .tagMiss).gotoSync := by
  simp [State.complete, h, State.noteTagMiss, State.demuxOut, State.readyPayload_install _ _ hp]

/-- Every completion leaves the framer hunting. -/
theorem State.complete_rx (s : State) (p : List Byte) :
    (s.complete p).rxState = .waitSync ∧ (s.complete p).rxLen = 0#8 ∧ (s.complete p).rxCnt = 0#8 := by
  simp [State.complete]

/-- The byte that completes the payload: the assembled bytes are the earlier ones and this one. -/
theorem State.assembled_storePayloadByte (s : State) (b : Byte) (h : s.rxCnt.toNat + 1 = s.rxLen.toNat) :
    (s.storePayloadByte b).assembled = firstBytes s.asmBuf s.rxCnt.toNat ++ [b] := by
  have hl := s.rxLen.isLt
  simp only [State.assembled, State.storePayloadByte_asmBuf, State.storePayloadByte_rxLen, ← h]
  exact firstBytes_set_succ s.asmBuf s.rxCnt.toNat b (by omega)

/-- The last-byte test on 8-bit counts is the test on numbers, below the length. -/
theorem lastByte_iff {c l : BitVec 8} (h : c.toNat < l.toNat) : c + 1#8 = l ↔ c.toNat + 1 = l.toNat := by
  have hl := l.isLt
  rw [← BitVec.toNat_inj, BitVec.toNat_add]
  simp only [BitVec.toNat_ofNat]
  omega

/-! ### The watchdog (40_rx_framer.md R121) -/

theorem State.wdtCheck_cases (s : State) :
    (s.wdtEn = true ∧ s.rxState ≠ .waitSync ∧ s.wdtTimeout < s.idle ∧ s.wdtCheck = (s.raise .wdtTimeout).gotoSync) ∨
      (¬ (s.wdtEn = true ∧ s.rxState ≠ .waitSync ∧ s.wdtTimeout < s.idle) ∧ s.wdtCheck = s) := by
  unfold State.wdtCheck
  split
  · rename_i h
    exact .inl ⟨h.1, h.2.1, h.2.2, rfl⟩
  · rename_i h
    exact .inr ⟨h, rfl⟩

/-- The saturating increment as numbers. -/
theorem sat32_toNat (c : Word) : (sat32 c).toNat = min (c.toNat + 1) (2 ^ 32 - 1) := by
  have hc := c.isLt
  unfold sat32
  split
  · rename_i h
    subst h
    rfl
  · rename_i h
    have hne : c.toNat ≠ 4294967295 := fun he => h (BitVec.eq_of_toNat_eq he)
    rw [BitVec.toNat_add]
    simp only [BitVec.toNat_ofNat]
    omega

/-! ### The send request (41_tx_framer.md R142) -/

theorem State.send_of_busy (s : State) (v : Word) (h : s.txBusy = true) : s.send v = s.raise .txDrop := by
  simp [State.send, h]

theorem State.send_of_large (s : State) (v : Word) (h : s.txBusy = false) (hn : 250 < sendCount v) :
    s.send v = s.raise .txReject := by
  have hc : Config.txBufCap < 6 + sendCount v := by unfold Config.txBufCap; omega
  simp [State.send, h, hc]

theorem State.send_of_free (s : State) (v : Word) (h : s.txBusy = false) (hn : sendCount v ≤ 250) :
    s.send v =
      { s with
        txFrame := overlay (s.frameImage (sendCount v)) s.txFrame
        txTotal := BitVec.ofNat 9 (6 + sendCount v)
        txIdx := 0#9
        txBusy := true } := by
  have hc : ¬ Config.txBufCap < 6 + sendCount v := by unfold Config.txBufCap; omega
  simp [State.send, h, hc]

theorem sendCount_eq (v : Word) : sendCount v = v.toNat % 256 := by
  simp [sendCount, byteLane]

theorem State.frameImage_length (s : State) (n : Nat) (h : n ≤ 250) : (s.frameImage n).length = 6 + n := by
  simp [State.frameImage, bytesOfWord]
  omega

/-! ### CMD (10_state.md R47) -/

theorem State.writeCmd_cases (s : State) (v : Word) :
    s.writeCmd v =
      if v.getLsbD 0 = true then (if v.getLsbD 1 = true then s.softReset.clearCounters else s.softReset)
      else (if v.getLsbD 1 = true then s.clearCounters else s) := by
  simp only [State.writeCmd]
  split <;> split <;> rfl

/-! ### Reads (10_state.md R40) -/

theorem State.regRead_rxBuf (s : State) (w : BitVec 8) (h : 64 ≤ w.toNat ∧ w.toNat < 128) :
    s.regRead w = s.rxBufReg (w.toNat - 64) := by
  unfold State.regRead
  split <;> first | omega | simp [h]

theorem State.regRead_txStage (s : State) (w : BitVec 8) (h : 128 ≤ w.toNat ∧ w.toNat < 192) :
    s.regRead w = s.txStageReg (w.toNat - 128) := by
  unfold State.regRead
  split <;> first | omega | (rw [if_neg (by omega), if_pos h])

end Sys2Proof.Machine
end

