-- ==== Sys2Proof/Laws/PerInstr.lean ====
section
/-! SUPPORT. The family DecodesBack: for one instruction, decoding its encoding gives it back in every receive state that selects its
row. One lemma per constructor of `Instr`. -/

namespace Sys2Proof.Laws.DecodesBack

/-- Decoding the encoding of `i` gives `i` back. -/
def Statement (i : Instr) : Prop :=
  ∀ (t : Config.Tables) (st : RxState), t.wf → i.wf t = true → i.selectedIn st = true → decode t st (encode i) = .ok i

/-- A tag row decodes back: its word selects its row of the table. -/
theorem of_tagRow {t : Word} {r : TagRow} (hr : tagRowOf t = some r) (params : List Byte)
    (he : encode (r.build params) = .payload (tagPayload t params))
    (hw : ∀ tbl, (r.build params).wf tbl = decide (params.length ≤ maxTagParams)) : Statement (r.build params) := by
  intro tbl st _ h _
  rw [hw, decide_eq_true_eq] at h
  rw [he]
  exact decodePayload_tagPayload tbl hr params h

/-- An admitted write decodes back when its row is the one found. -/
theorem of_write {i : Instr} {off : BitVec 10} {v : Word} (he : encode i = .event (.wr off 4 v)) (ha : off.toNat % 4 = 0)
    (hr : ∀ t, i.wf t = true → hostRowOf hostWriteRows off v = some i) : Statement i := by
  intro t st _ h _
  simp [he, decode, decodeEvent, (admitted_iff off 4).2 ⟨rfl, ha⟩, hr t h]

/-- An admitted read decodes back when its row is the one found. -/
theorem of_read {i : Instr} {off : BitVec 10} (he : encode i = .event (.rd off 4)) (ha : off.toNat % 4 = 0)
    (hr : ∀ t, i.wf t = true → hostRowOf hostReadRows off 0#32 = some i) : Statement i := by
  intro t st _ h _
  simp [he, decode, decodeEvent, (admitted_iff off 4).2 ⟨rfl, ha⟩, hr t h]

theorem gate (params : List Byte) : Statement (.gate params) :=
  of_tagRow (t := 0x45544147#32) (r := ⟨0x45544147#32, 0xFFFFFFFF#32, .gate⟩) rfl params rfl fun _ => rfl

theorem comp (params : List Byte) : Statement (.comp params) :=
  of_tagRow (t := 0x504D4F43#32) (r := ⟨0x504D4F43#32, 0xFFFFFFFF#32, .comp⟩) rfl params rfl fun _ => rfl

theorem awah (params : List Byte) : Statement (.awah params) :=
  of_tagRow (t := 0x48415741#32) (r := ⟨0x48415741#32, 0xFFFFFFFF#32, .awah⟩) rfl params rfl fun _ => rfl

theorem ovrd (params : List Byte) : Statement (.ovrd params) :=
  of_tagRow (t := 0x4452564F#32) (r := ⟨0x4452564F#32, 0xFFFFFFFF#32, .ovrd⟩) rfl params rfl fun _ => rfl

theorem dist (params : List Byte) : Statement (.dist params) :=
  of_tagRow (t := 0x54534944#32) (r := ⟨0x54534944#32, 0xFFFFFFFF#32, .dist⟩) rfl params rfl fun _ => rfl

theorem equl (params : List Byte) : Statement (.equl params) :=
  of_tagRow (t := 0x4C555145#32) (r := ⟨0x4C555145#32, 0xFFFFFFFF#32, .equl⟩) rfl params rfl fun _ => rfl

theorem harm (params : List Byte) : Statement (.harm params) :=
  of_tagRow (t := 0x4D524148#32) (r := ⟨0x4D524148#32, 0xFFFFFFFF#32, .harm⟩) rfl params rfl fun _ => rfl

theorem vibr (params : List Byte) : Statement (.vibr params) :=
  of_tagRow (t := 0x52424956#32) (r := ⟨0x52424956#32, 0xFFFFFFFF#32, .vibr⟩) rfl params rfl fun _ => rfl

theorem chor (params : List Byte) : Statement (.chor params) :=
  of_tagRow (t := 0x524F4843#32) (r := ⟨0x524F4843#32, 0xFFFFFFFF#32, .chor⟩) rfl params rfl fun _ => rfl

theorem octv (params : List Byte) : Statement (.octv params) :=
  of_tagRow (t := 0x5654434F#32) (r := ⟨0x5654434F#32, 0xFFFFFFFF#32, .octv⟩) rfl params rfl fun _ => rfl

theorem flng (params : List Byte) : Statement (.flng params) :=
  of_tagRow (t := 0x474E4C46#32) (r := ⟨0x474E4C46#32, 0xFFFFFFFF#32, .flng⟩) rfl params rfl fun _ => rfl

theorem phas (params : List Byte) : Statement (.phas params) :=
  of_tagRow (t := 0x53414850#32) (r := ⟨0x53414850#32, 0xFFFFFFFF#32, .phas⟩) rfl params rfl fun _ => rfl

theorem trem (params : List Byte) : Statement (.trem params) :=
  of_tagRow (t := 0x4D455254#32) (r := ⟨0x4D455254#32, 0xFFFFFFFF#32, .trem⟩) rfl params rfl fun _ => rfl

theorem fir (params : List Byte) : Statement (.fir params) :=
  of_tagRow (t := 0x20524946#32) (r := ⟨0x20524946#32, 0xFFFFFFFF#32, .fir⟩) rfl params rfl fun _ => rfl

theorem dely (params : List Byte) : Statement (.dely params) :=
  of_tagRow (t := 0x594C4544#32) (r := ⟨0x594C4544#32, 0xFFFFFFFF#32, .dely⟩) rfl params rfl fun _ => rfl

theorem nam (params : List Byte) : Statement (.nam params) :=
  of_tagRow (t := 0x204D414E#32) (r := ⟨0x204D414E#32, 0xFFFFFFFF#32, .nam⟩) rfl params rfl fun _ => rfl

theorem rvrb (params : List Byte) : Statement (.rvrb params) :=
  of_tagRow (t := 0x42525652#32) (r := ⟨0x42525652#32, 0xFFFFFFFF#32, .rvrb⟩) rfl params rfl fun _ => rfl

theorem gnrc (params : List Byte) : Statement (.gnrc params) :=
  of_tagRow (t := 0x43524E47#32) (r := ⟨0x43524E47#32, 0xFFFFFFFF#32, .gnrc⟩) rfl params rfl fun _ => rfl

theorem gen (params : List Byte) : Statement (.gen params) :=
  of_tagRow (t := 0x204E4547#32) (r := ⟨0x204E4547#32, 0xFFFFFFFF#32, .gen⟩) rfl params rfl fun _ => rfl

theorem util (params : List Byte) : Statement (.util params) :=
  of_tagRow (t := 0x4C495455#32) (r := ⟨0x4C495455#32, 0xFFFFFFFF#32, .util⟩) rfl params rfl fun _ => rfl

theorem loop (params : List Byte) : Statement (.loop params) :=
  of_tagRow (t := 0x504F4F4C#32) (r := ⟨0x504F4F4C#32, 0xFFFFFFFF#32, .loop⟩) rfl params rfl fun _ => rfl

theorem drum (params : List Byte) : Statement (.drum params) :=
  of_tagRow (t := 0x4D555244#32) (r := ⟨0x4D555244#32, 0xFFFFFFFF#32, .drum⟩) rfl params rfl fun _ => rfl

theorem metr (params : List Byte) : Statement (.metr params) :=
  of_tagRow (t := 0x5254454D#32) (r := ⟨0x5254454D#32, 0xFFFFFFFF#32, .metr⟩) rfl params rfl fun _ => rfl

theorem byps (params : List Byte) : Statement (.byps params) :=
  of_tagRow (t := 0x53505942#32) (r := ⟨0x53505942#32, 0xFFFFFFFF#32, .byps⟩) rfl params rfl fun _ => rfl

theorem midi (params : List Byte) : Statement (.midi params) :=
  of_tagRow (t := 0x4944494D#32) (r := ⟨0x4944494D#32, 0xFFFFFFFF#32, .midi⟩) rfl params rfl fun _ => rfl

theorem reql (params : List Byte) : Statement (.reql params) :=
  of_tagRow (t := 0x4C514552#32) (r := ⟨0x4C514552#32, 0xFFFFFFFF#32, .reql⟩) rfl params rfl fun _ => rfl

theorem flsh (params : List Byte) : Statement (.flsh params) :=
  of_tagRow (t := 0x48534C46#32) (r := ⟨0x48534C46#32, 0xFFFFFFFF#32, .flsh⟩) rfl params rfl fun _ => rfl

theorem rstd (params : List Byte) : Statement (.rstd params) :=
  of_tagRow (t := 0x44545352#32) (r := ⟨0x44545352#32, 0xFFFFFFFF#32, .rstd⟩) rfl params rfl fun _ => rfl

theorem pres (params : List Byte) : Statement (.pres params) :=
  of_tagRow (t := 0x53455250#32) (r := ⟨0x53455250#32, 0xFFFFFFFF#32, .pres⟩) rfl params rfl fun _ => rfl

theorem eq (params : List Byte) : Statement (.eq params) := by
  intro tbl st ht h _
  simp only [Instr.wf, Bool.and_eq_true, decide_eq_true_eq] at h
  obtain ⟨⟨hl, ho⟩, hf⟩ := h
  have hm := tag32_eq_notMem hf
  have hmiss := bind_tagRowOf_eq_none (fun w hw => notMem_catalog_of_wf ht (hm w hw))
  have hany : (tag32 (0x45#8 :: 0x51#8 :: params)).any tbl.tagTable.contains = false := by
    cases hw : tag32 (0x45#8 :: 0x51#8 :: params) with
    | none => rfl
    | some w => simpa using hm w hw
  rw [maxAliasParams] at hl
  simp only [encode, decode, decodePayload, hmiss, hany, List.length_cons, Config.maxPayload]
  rw [if_neg (by omega), if_neg (by omega), if_neg (by decide), if_pos ⟨by omega, rfl⟩]
  rfl

theorem rxbWaitSync (b : Byte) : Statement (.rxbWaitSync b) := by intro _ st _ _ h; cases st <;> first | rfl | cases h

theorem rxbWaitLen (b : Byte) : Statement (.rxbWaitLen b) := by intro _ st _ _ h; cases st <;> first | rfl | cases h

theorem rxbWaitPayload (b : Byte) : Statement (.rxbWaitPayload b) := by intro _ st _ _ h; cases st <;> first | rfl | cases h

theorem rxe (k : LineErr) : Statement (.rxe k) := fun _ _ _ _ _ => rfl

theorem tick : Statement .tick := fun _ _ _ _ _ => rfl

theorem txpop : Statement .txpop := fun _ _ _ _ _ => rfl

theorem buserr (kind : AccessKind) (off : BitVec 10) (size : Nat) : Statement (.buserr kind off size) := by
  intro _ st _ h _
  have hn : admitted off size = false := by
    simp only [Instr.wf, admitted, bne, Bool.or_eq_true, Bool.not_eq_true', Bool.and_eq_false_iff] at *
    exact h
  cases kind <;> simp [encode, decode, decodeEvent, hn]

theorem hrst : Statement .hrst := fun _ _ _ _ _ => rfl

theorem ctrlwr (v : Word) : Statement (.ctrlwr v) := of_write rfl rfl fun _ _ => by simp [hostRowOf_write]

theorem consume (v : Word) : Statement (.consume v) := of_write rfl rfl fun _ _ => by simp [hostRowOf_write]

theorem wdtset (v : Word) : Statement (.wdtset v) := of_write rfl rfl fun _ _ => by simp [hostRowOf_write]

theorem softrst (v : Word) : Statement (.softrst v) :=
  of_write rfl rfl fun _ h => by simp only [Instr.wf] at h; simp [hostRowOf_write, h]

theorem cntclr (v : Word) : Statement (.cntclr v) :=
  of_write rfl rfl fun _ h => by
    simp only [Instr.wf, Bool.and_eq_true, Bool.not_eq_true'] at h
    rw [hostRowOf_write _ _ rfl]
    simp only [h.1, h.2]
    rfl

theorem crcinit (v : Word) : Statement (.crcinit v) :=
  of_write rfl rfl fun _ h => by simp only [Instr.wf] at h; simp [hostRowOf_write, h]

theorem crcfeed (v : Word) : Statement (.crcfeed v) := of_write rfl rfl fun _ _ => by simp [hostRowOf_write]

theorem txtag (v : Word) : Statement (.txtag v) := of_write rfl rfl fun _ _ => by simp [hostRowOf_write]

theorem txsend (v : Word) : Statement (.txsend v) := of_write rfl rfl fun _ _ => by simp [hostRowOf_write]

theorem txstage (k : BitVec 6) (v : Word) : Statement (.txstage k v) := by
  have ho := windowOff_toNat k 2 (by decide)
  have hx := extract_windowOff k 2 (by decide)
  simp only [Nat.reduceMul] at ho hx
  refine of_write rfl (by rw [ho]; omega) fun _ _ => ?_
  have hne : ∀ c : BitVec 10, c.toNat < 512 → (0x200#10 ||| offOfWord (k.zeroExtend 8)) ≠ c := by
    intro c hc he
    rw [he] at ho
    omega
  rw [hostRowOf_write _ _ (by rw [ho]; omega)]
  repeat rw [if_neg (hne _ (by decide))]
  rw [if_pos (by rw [ho]; omega), hx]

theorem rdreg (w : BitVec 8) : Statement (.rdreg w) := by
  refine of_read rfl (offOfWord_aligned w) fun _ h => ?_
  have ho := offOfWord_toNat w
  simp only [Instr.wf, rdregKeeps, Bool.and_eq_true, bne_iff_ne, Bool.not_eq_true', Bool.and_eq_false_iff,
    decide_eq_false_iff_not] at h
  have hne : ∀ c : BitVec 8, w ≠ c → ∀ o, o = offOfWord c → offOfWord w ≠ o := by
    rintro c hc o rfl he
    exact hc (by rw [← extract_offOfWord w, he, extract_offOfWord])
  rw [hostRowOf_read _ _ (offOfWord_aligned w), extract_offOfWord]
  rw [if_neg (hne 18#8 h.1.2 0x048#10 rfl), if_neg (hne 6#8 h.1.1 0x018#10 rfl), if_neg (by rw [ho]; omega)]

theorem crcread : Statement .crcread := of_read rfl rfl fun _ _ => by simp [hostRowOf_read]

theorem demuxread : Statement .demuxread := of_read rfl rfl fun _ _ => by simp [hostRowOf_read]

theorem rxread (k : BitVec 6) : Statement (.rxread k) := by
  have ho := windowOff_toNat k 1 (by decide)
  have hx := extract_windowOff k 1 (by decide)
  simp only [Nat.reduceMul] at ho hx
  refine of_read rfl (by rw [ho]; omega) fun _ _ => ?_
  have hne : ∀ c : BitVec 10, c.toNat < 256 → (0x100#10 ||| offOfWord (k.zeroExtend 8)) ≠ c := by
    intro c hc he
    rw [he] at ho
    omega
  rw [hostRowOf_read _ _ (by rw [ho]; omega), if_neg (hne _ (by decide)), if_neg (hne _ (by decide)),
    if_pos (by rw [ho]; omega), hx]

end Sys2Proof.Laws.DecodesBack
end

