-- ==== Sys2Proof/Laws/Registers.lean ====
section
/-! SUPPORT. The register windows lane by lane, and bit fields of a word. -/

namespace Sys2Proof.Machine

/-- A field of a word is known by its bits. -/
theorem extract_eq_of_bits {n m : Nat} {v : BitVec n} {w : BitVec m} {lo : Nat}
    (h : ∀ i, i < m → v.getLsbD (lo + i) = w.getLsbD i) : v.extractLsb' lo m = w := by
  apply BitVec.eq_of_getLsbD_eq
  intro i hi
  simp [hi, h i hi]

/-- A word is known by its lanes. -/
theorem word_eq_of_lanes {v w : Word} (h : ∀ j, j < 4 → byteLane v j = byteLane w j) : v = w := by
  rw [← wordOfBytes_byteLane v, ← wordOfBytes_byteLane w, h 0 (by decide), h 1 (by decide), h 2 (by decide), h 3 (by decide)]

/-- RX_BUF[k] lane by lane (10_state.md R48). -/
theorem State.byteLane_rxBufReg (s : State) (k j : Nat) (hj : j < 4) : byteLane (s.rxBufReg k) j = s.rxByte (4 * k + j) := by
  unfold State.rxBufReg
  rw [byteLane_wordOfBytes _ _ _ _ _ hj]
  interval_cases j <;> rfl

/-- TX_STAGE[k] lane by lane (10_state.md R49). -/
theorem State.byteLane_txStageReg (s : State) (k j : Nat) (hj : j < 4) :
    byteLane (s.txStageReg k) j = s.stageByte (4 * k + j) := by
  unfold State.txStageReg
  rw [byteLane_wordOfBytes _ _ _ _ _ hj]
  interval_cases j <;> rfl

/-- A staged word changes exactly its bytes that exist (10_state.md R49). -/
theorem byteAt_stageWord (stage : Vector Byte 250) (k i : Nat) (v : Word) (hi : i < 250) :
    byteAt (stageWord stage k v) i = if i / 4 = k then byteLane v (i % 4) else byteAt stage i := by
  unfold stageWord
  simp only [byteAt_setIfInBounds _ _ _ _ hi]
  by_cases h : i / 4 = k
  · rw [if_pos h]
    have h4 : i % 4 < 4 := Nat.mod_lt _ (by decide)
    have hd := Nat.div_add_mod i 4
    generalize i % 4 = m at *
    rw [h] at hd
    interval_cases m <;> simp [← hd]
  · rw [if_neg h, if_neg (by omega), if_neg (by omega), if_neg (by omega), if_neg (by omega)]

/-- The byte handed out, for an index inside tx_frame. -/
theorem State.txByte_eq (s : State) (h : s.txIdx.toNat < 256) : s.txByte = byteAt s.txFrame s.txIdx.toNat := by
  unfold State.txByte byteAt
  simp only [List.getD]
  rw [List.getElem?_eq_getElem (by simp; omega)]
  rfl

end Sys2Proof.Machine
end

