-- ==== Sys2Proof/Laws/Step.lean ====
section
/-! SUPPORT. What a step can do, said once: the state each event leaves, as a function of the event. Proofs about every step go through
`step_next_iff` and never unfold the decoder or the dispatch. -/

namespace Sys2Proof.Machine

/-- What RXB leaves, by receive state. -/
def State.afterByte (s : State) (b : Byte) : State :=
  match s.rxState with
  | .waitSync => if b = Config.sync then { s.clearIdle with rxState := .waitLen } else s.clearIdle
  | .waitLen =>
    if b = 0#8 then (s.clearIdle.raise .badLen).gotoSync
    else { s.clearIdle with rxLen := b, rxCnt := 0#8, rxState := .waitPayload }
  | .waitPayload =>
    if s.rxCnt + 1#8 = s.rxLen then (s.storePayloadByte b).complete (s.storePayloadByte b).assembled
    else s.storePayloadByte b

/-- What an admitted write does to the registers, by offset. -/
def State.afterWrite (s : State) (off : BitVec 10) (v : Word) : State :=
  if off = 0x000#10 then { s with wdtEn := v.getLsbD 0, irqEn := v.getLsbD 1 }
  else if off = 0x010#10 then { s with rdy := false }
  else if off = 0x014#10 then { s with wdtTimeout := v }
  else if off = 0x01C#10 then s.writeCmd v
  else if off = 0x040#10 then (if v.getLsbD 0 then { s with crc := Config.crcInit } else s)
  else if off = 0x044#10 then { s with crc := crcStep s.crc (byteLane v 0) }
  else if off = 0x050#10 then { s with txTag := v }
  else if off = 0x054#10 then s.send v
  else if 0x200 ≤ off.toNat ∧ off.toNat < 0x300 then
    { s with txStage := stageWord s.txStage (off.extractLsb' 2 6).toNat v }
  else s

/-- What an event leaves, TXPOP taken as with a frame in flight. -/
def State.after (s : State) : Event → State
  | .rxb b => s.afterByte b
  | .rxe k => (s.clearIdle.raise (.lineError k)).gotoSync
  | .tick => { s with idle := sat32 s.idle }.wdtCheck
  | .txpop => s.popByte.respond (.txByte s.txByte)
  | .rd off size =>
    if size = 4 ∧ off.toNat % 4 = 0 then s.respond (.readData (s.regRead (off.extractLsb' 2 8)))
    else (s.raise .busError).respond (.busError (some 0#32))
  | .wr off size v =>
    if size = 4 ∧ off.toNat % 4 = 0 then (s.afterWrite off v).respond .writeOk
    else (s.raise .busError).respond (.busError none)
  | .hrst => s.hardReset

theorem stepEvent_rxb (s : State) (b : Byte) : stepEvent (.rxb b) s = .next (s.afterByte b) := by
  cases h : s.rxState
  · simp [stepEvent, decodeEvent, h, exec, execRxbWaitSync, State.afterByte]
  · simp [stepEvent, decodeEvent, h, exec, execRxbWaitLen, State.afterByte]
  · simp only [stepEvent, decodeEvent, h, exec, execRxbWaitPayload, State.afterByte]
    rfl

/-- Every admitted read row answers the addressed register: the narrower rows are the general one at their offset. -/
theorem stepEvent_rd (s : State) (off : BitVec 10) (size : Nat) : stepEvent (.rd off size) s = .next (s.after (.rd off size)) := by
  by_cases ha : size = 4 ∧ off.toNat % 4 = 0
  · have hx : off.toNat / 4 = (off.extractLsb' 2 8).toNat := by clear ha; revert off; decide
    have hx6 : 0x100 ≤ off.toNat ∧ off.toNat < 0x200 → (off.extractLsb' 2 6).toNat = (off.extractLsb' 2 8).toNat - 64 := by
      clear ha hx; revert off; decide
    simp only [stepEvent, decodeEvent, (admitted_iff off size).2 ha, if_true, hostRowOf_read _ _ ha.2, State.after, if_pos ha]
    split
    · rename_i i hi
      split at hi
      · subst_vars; cases hi; rfl
      · split at hi
        · subst_vars; cases hi; rfl
        · split at hi
          · rename_i hw
            cases hi
            simp only [exec, execRxread]
            rw [State.regRead_rxBuf _ _ (by omega), hx6 hw]
          · cases hi; rfl
    · rename_i hi
      repeat' split at hi
      all_goals cases hi
  · have : admitted off size = false := by
      rw [← Bool.not_eq_true, admitted_iff]; exact ha
    simp only [stepEvent, decodeEvent, this, State.after, if_neg ha]
    rfl

theorem stepEvent_wr (s : State) (off : BitVec 10) (size : Nat) (v : Word) :
    stepEvent (.wr off size v) s = .next (s.after (.wr off size v)) := by
  by_cases ha : size = 4 ∧ off.toNat % 4 = 0
  · simp only [stepEvent, decodeEvent, (admitted_iff off size).2 ha, if_true, hostRowOf_write _ _ ha.2, State.after, if_pos ha,
      State.afterWrite]
    by_cases h0 : off = 0x000#10
    · subst h0; rfl
    by_cases h1 : off = 0x010#10
    · subst h1; rfl
    by_cases h2 : off = 0x014#10
    · subst h2; rfl
    by_cases h3 : off = 0x01C#10
    · subst h3
      rw [if_neg h0, if_neg h1, if_neg h2, if_neg h0, if_neg h1, if_neg h2]
      cases hb0 : v.getLsbD 0 <;> cases hb1 : v.getLsbD 1 <;>
        simp only [State.writeCmd, hb0, hb1, exec, execSoftrst, execCntclr, if_true, Bool.false_eq_true, if_false]
    by_cases h4 : off = 0x040#10
    · subst h4
      rw [if_neg h0, if_neg h1, if_neg h2, if_neg h3, if_neg h0, if_neg h1, if_neg h2, if_neg h3]
      cases hb0 : v.getLsbD 0 <;> simp only [hb0, exec, execCrcinit, if_true, Bool.false_eq_true, if_false]
    by_cases h5 : off = 0x044#10
    · subst h5; rfl
    by_cases h6 : off = 0x050#10
    · subst h6; rfl
    by_cases h7 : off = 0x054#10
    · subst h7; rfl
    simp only [if_neg h0, if_neg h1, if_neg h2, if_neg h3, if_neg h4, if_neg h5, if_neg h6, if_neg h7]
    by_cases h8 : 0x200 ≤ off.toNat ∧ off.toNat < 0x300
    · simp only [if_pos h8]; rfl
    · simp only [if_neg h8]
  · have : admitted off size = false := by
      rw [← Bool.not_eq_true, admitted_iff]; exact ha
    simp only [stepEvent, decodeEvent, this, State.after, if_neg ha]
    rfl

/-- An event leaves `after`, unless it is a TXPOP with no frame in flight. -/
theorem stepEvent_eq (s : State) (e : Event) :
    stepEvent e s = if e = .txpop ∧ s.txBusy = false then .refused .txpopWithoutFrame else .next (s.after e) := by
  cases e with
  | rxb b => simpa [State.after] using stepEvent_rxb s b
  | rd off size => simpa using stepEvent_rd s off size
  | wr off size v => simpa using stepEvent_wr s off size v
  | txpop => cases h : s.txBusy <;> simp [stepEvent, decodeEvent, exec, execTxpop, h, State.after]
  | rxe k => simp [stepEvent, decodeEvent, exec, execRxe, State.after]
  | tick => simp [stepEvent, decodeEvent, exec, execTick, State.after]
  | hrst => simp [stepEvent, decodeEvent, exec, execHrst, State.after]

theorem step_nil {s : State} (h : s.inbox = []) : step s = .next s := by simp [step, h]

theorem step_cons {s : State} {e : Event} {rest : List Event} (h : s.inbox = e :: rest) : step s = stepEvent e (s.take rest) := by
  simp [step, h]

/-- The next state of a step is `after` of the event taken. -/
theorem step_next_iff {s t : State} {e : Event} {rest : List Event} (h : s.inbox = e :: rest) :
    step s = .next t ↔ ¬ (e = .txpop ∧ s.txBusy = false) ∧ (s.take rest).after e = t := by
  rw [step_cons h, stepEvent_eq]
  by_cases hp : e = .txpop ∧ s.txBusy = false
  · have hp' : e = .txpop ∧ (s.take rest).txBusy = false := hp
    rw [if_pos hp']
    simp [hp]
  · have hp' : ¬ (e = .txpop ∧ (s.take rest).txBusy = false) := hp
    rw [if_neg hp']
    simp [hp]

/-- A tag row's meaning, from its encoding: the payload is handed over. -/
theorem exec_of_payload {i : Instr} {p : List Byte} (h : encode i = .payload p) (s : State) :
    exec i s = .next (s.receivePayload p) := by
  cases i
  case buserr kind off size => cases kind <;> cases h
  all_goals first
    | (cases h; rfl)
    | cases h

/-- The byte that completes a payload hands it over. -/
theorem exec_lastByte (s : State) (b : Byte) (h : s.rxState = .waitPayload) (hl : s.rxCnt.toNat + 1 = s.rxLen.toNat) :
    exec (.rxbWaitPayload b) s = .next ((s.storePayloadByte b).complete (firstBytes s.asmBuf s.rxCnt.toNat ++ [b])) := by
  have e : (s.storePayloadByte b).rxCnt = (s.storePayloadByte b).rxLen :=
    (lastByte_iff (c := s.rxCnt) (l := s.rxLen) (by omega)).2 hl
  simp only [exec, execRxbWaitPayload, h, if_true, if_pos e, State.assembled_storePayloadByte s b hl]

/-- A byte before the last is only stored. -/
theorem exec_earlierByte (s : State) (b : Byte) (h : s.rxState = .waitPayload) (hl : s.rxCnt.toNat + 1 < s.rxLen.toNat) :
    exec (.rxbWaitPayload b) s = .next (s.storePayloadByte b) := by
  have e : ¬ (s.storePayloadByte b).rxCnt = (s.storePayloadByte b).rxLen := fun he => by
    have := (lastByte_iff (c := s.rxCnt) (l := s.rxLen) (by omega)).1 he
    omega
  simp only [exec, execRxbWaitPayload, h, if_true, if_neg e]

/-- `complete` in one equation: dropped, installed, or installed with a tag miss. -/
theorem State.complete_cases (s : State) (p : List Byte) (hp : p.length ≤ 255) :
    (s.rdy = true ∧ s.complete p = (s.raise .rxDrop).gotoSync) ∨
      (s.rdy = false ∧ (demux s.tables p).hit = true ∧ s.complete p = (s.install p).gotoSync) ∨
      (s.rdy = false ∧ (demux s.tables p).hit = false ∧ s.complete p = ((s.install p).raise .tagMiss).gotoSync) := by
  cases hr : s.rdy
  · cases hd : (demux s.tables p).hit
    · exact .inr (.inr ⟨rfl, rfl, by rw [State.complete_of_free _ _ hp hr, hd]; rfl⟩)
    · exact .inr (.inl ⟨rfl, rfl, by rw [State.complete_of_free _ _ hp hr, hd]; rfl⟩)
  · exact .inl ⟨rfl, State.complete_of_ready s p hr⟩

theorem State.afterByte_sync (s : State) (h : s.rxState = .waitSync) :
    s.afterByte 0xAA#8 = { s.clearIdle with rxState := .waitLen } := by
  simp [State.afterByte, h, Config.sync]

theorem State.afterByte_len (s : State) (b : Byte) (h : s.rxState = .waitLen) (hb : b ≠ 0#8) :
    s.afterByte b = { s.clearIdle with rxLen := b, rxCnt := 0#8, rxState := .waitPayload } := by
  simp [State.afterByte, h, hb]

theorem State.afterByte_store (s : State) (b : Byte) (h : s.rxState = .waitPayload) (hl : s.rxCnt.toNat + 1 < s.rxLen.toNat) :
    s.afterByte b = s.storePayloadByte b := by
  have hn : ¬ s.rxCnt + 1#8 = s.rxLen := fun he => by
    have := (lastByte_iff (c := s.rxCnt) (l := s.rxLen) (by omega)).1 he
    omega
  simp [State.afterByte, h, hn]

theorem State.afterByte_last (s : State) (b : Byte) (h : s.rxState = .waitPayload) (hl : s.rxCnt.toNat + 1 = s.rxLen.toNat) :
    s.afterByte b = (s.storePayloadByte b).complete (firstBytes s.asmBuf s.rxCnt.toNat ++ [b]) := by
  have he : s.rxCnt + 1#8 = s.rxLen := (lastByte_iff (by omega)).2 hl
  simp only [State.afterByte, h]
  rw [if_pos he, State.assembled_storePayloadByte s b hl]

/-- Everything a received byte can do, by receive state (40_rx_framer.md R102 to R106). -/
theorem State.afterByte_cases (s : State) (b : Byte) :
    (s.rxState = .waitSync ∧
        ((b = 0xAA#8 ∧ s.afterByte b = { s.clearIdle with rxState := .waitLen }) ∨
          (b ≠ 0xAA#8 ∧ s.afterByte b = s.clearIdle))) ∨
      (s.rxState = .waitLen ∧
        ((b = 0#8 ∧ s.afterByte b = (s.clearIdle.raise .badLen).gotoSync) ∨
          (b ≠ 0#8 ∧ s.afterByte b = { s.clearIdle with rxLen := b, rxCnt := 0#8, rxState := .waitPayload }))) ∨
      (s.rxState = .waitPayload ∧
        ((s.rxCnt + 1#8 ≠ s.rxLen ∧ s.afterByte b = s.storePayloadByte b) ∨
          (s.rxCnt + 1#8 = s.rxLen ∧
            ((s.rdy = true ∧ s.afterByte b = ((s.storePayloadByte b).raise .rxDrop).gotoSync) ∨
              (s.rdy = false ∧ (demux s.tables (s.storePayloadByte b).assembled).hit = true ∧
                s.afterByte b = ((s.storePayloadByte b).install (s.storePayloadByte b).assembled).gotoSync) ∨
              (s.rdy = false ∧ (demux s.tables (s.storePayloadByte b).assembled).hit = false ∧
                s.afterByte b =
                  (((s.storePayloadByte b).install (s.storePayloadByte b).assembled).raise .tagMiss).gotoSync))))) := by
  unfold State.afterByte
  cases h : s.rxState
  · by_cases hb : b = 0xAA#8
    · have : b = Config.sync := hb
      simp [this, Config.sync]
    · have : ¬ b = Config.sync := hb
      simp [this, hb]
  · by_cases hb : b = 0#8 <;> simp [hb]
  · by_cases hb : s.rxCnt + 1#8 = s.rxLen
    · have hx := State.complete_cases (s.storePayloadByte b) (s.storePayloadByte b).assembled (by simp [State.assembled])
      simp only [if_pos hb]
      refine .inr (.inr ⟨trivial, .inr ⟨hb, ?_⟩⟩)
      exact hx
    · simp [hb]

/-- Everything an admitted write can do, by offset (10_state.md R40). -/
theorem State.afterWrite_cases (s : State) (off : BitVec 10) (v : Word) :
    (off = 0x000#10 ∧ s.afterWrite off v = { s with wdtEn := v.getLsbD 0, irqEn := v.getLsbD 1 }) ∨
    (off = 0x010#10 ∧ s.afterWrite off v = { s with rdy := false }) ∨
    (off = 0x014#10 ∧ s.afterWrite off v = { s with wdtTimeout := v }) ∨
    (off = 0x01C#10 ∧ v.getLsbD 0 = true ∧ v.getLsbD 1 = true ∧ s.afterWrite off v = s.softReset.clearCounters) ∨
    (off = 0x01C#10 ∧ v.getLsbD 0 = true ∧ v.getLsbD 1 = false ∧ s.afterWrite off v = s.softReset) ∨
    (off = 0x01C#10 ∧ v.getLsbD 0 = false ∧ v.getLsbD 1 = true ∧ s.afterWrite off v = s.clearCounters) ∨
    (off = 0x040#10 ∧ s.afterWrite off v = { s with crc := Config.crcInit }) ∨
    (off = 0x044#10 ∧ s.afterWrite off v = { s with crc := crcStep s.crc (byteLane v 0) }) ∨
    (off = 0x050#10 ∧ s.afterWrite off v = { s with txTag := v }) ∨
    (off = 0x054#10 ∧ s.txBusy = true ∧ s.afterWrite off v = s.raise .txDrop) ∨
    (off = 0x054#10 ∧ s.txBusy = false ∧ 250 < sendCount v ∧ s.afterWrite off v = s.raise .txReject) ∨
    (off = 0x054#10 ∧ s.txBusy = false ∧ sendCount v ≤ 250 ∧ s.afterWrite off v = { s with
          txFrame := overlay (s.frameImage (sendCount v)) s.txFrame
          txTotal := BitVec.ofNat 9 (6 + sendCount v)
          txIdx := 0#9
          txBusy := true }) ∨
    ((0x200 ≤ off.toNat ∧ off.toNat < 0x300) ∧
      s.afterWrite off v = { s with txStage := stageWord s.txStage (off.extractLsb' 2 6).toNat v }) ∨
    s.afterWrite off v = s := by
  by_cases h0 : off = 0x000#10
  · subst h0; exact .inl ⟨rfl, rfl⟩
  refine .inr ?_
  by_cases h1 : off = 0x010#10
  · subst h1; exact .inl ⟨rfl, rfl⟩
  refine .inr ?_
  by_cases h2 : off = 0x014#10
  · subst h2; exact .inl ⟨rfl, rfl⟩
  refine .inr ?_
  by_cases h3 : off = 0x01C#10
  · subst h3
    have : s.afterWrite 0x01C#10 v = s.writeCmd v := rfl
    rw [this]
    rw [State.writeCmd_cases]
    cases v.getLsbD 0 <;> cases v.getLsbD 1 <;> simp
  refine .inr (.inr (.inr ?_))
  by_cases h4 : off = 0x040#10
  · subst h4
    have : s.afterWrite 0x040#10 v = (if v.getLsbD 0 then { s with crc := Config.crcInit } else s) := rfl
    rw [this]
    cases v.getLsbD 0 <;> simp
  refine .inr ?_
  by_cases h5 : off = 0x044#10
  · subst h5; exact .inl ⟨rfl, rfl⟩
  refine .inr ?_
  by_cases h6 : off = 0x050#10
  · subst h6; exact .inl ⟨rfl, rfl⟩
  refine .inr ?_
  by_cases h7 : off = 0x054#10
  · subst h7
    have : s.afterWrite 0x054#10 v = s.send v := rfl
    rw [this]
    cases hb : s.txBusy
    · by_cases hn : 250 < sendCount v
      · rw [State.send_of_large s v hb hn]; exact .inr (.inl ⟨rfl, rfl, hn, rfl⟩)
      · rw [State.send_of_free s v hb (by omega)]; exact .inr (.inr (.inl ⟨rfl, rfl, by omega, rfl⟩))
    · rw [State.send_of_busy s v hb]; exact .inl ⟨rfl, rfl, rfl⟩
  refine .inr (.inr (.inr ?_))
  unfold State.afterWrite
  simp only [if_neg h0, if_neg h1, if_neg h2, if_neg h3, if_neg h4, if_neg h5, if_neg h6, if_neg h7]
  by_cases h8 : 0x200 ≤ off.toNat ∧ off.toNat < 0x300
  · simp only [if_pos h8]; exact .inl ⟨h8, trivial⟩
  · simp only [if_neg h8]; exact .inr trivial

/-- Everything an event can do, as one flat list of cases: to show `Q` of every event and the state it leaves, show it in
each. -/
theorem State.after_elim (s : State) (e : Event) (Q : Event → State → Prop)
    (sync : ∀ b, s.rxState = .waitSync → b = 0xAA#8 → Q (.rxb b) { s.clearIdle with rxState := .waitLen })
    (noSync : ∀ b, s.rxState = .waitSync → b ≠ 0xAA#8 → Q (.rxb b) s.clearIdle)
    (badLen : ∀ b, s.rxState = .waitLen → b = 0#8 → Q (.rxb b) (s.clearIdle.raise .badLen).gotoSync)
    (len : ∀ b, s.rxState = .waitLen → b ≠ 0#8 →
      Q (.rxb b) { s.clearIdle with rxLen := b, rxCnt := 0#8, rxState := .waitPayload })
    (store : ∀ b, s.rxState = .waitPayload → s.rxCnt + 1#8 ≠ s.rxLen → Q (.rxb b) (s.storePayloadByte b))
    (drop : ∀ b, s.rxState = .waitPayload → s.rxCnt + 1#8 = s.rxLen → s.rdy = true →
      Q (.rxb b) ((s.storePayloadByte b).raise .rxDrop).gotoSync)
    (install : ∀ b, s.rxState = .waitPayload → s.rxCnt + 1#8 = s.rxLen → s.rdy = false →
      (demux s.tables (s.storePayloadByte b).assembled).hit = true → Q (.rxb b) ((s.storePayloadByte b).install (s.storePayloadByte b).assembled).gotoSync)
    (tagMiss : ∀ b, s.rxState = .waitPayload → s.rxCnt + 1#8 = s.rxLen → s.rdy = false →
      (demux s.tables (s.storePayloadByte b).assembled).hit = false → Q (.rxb b) (((s.storePayloadByte b).install (s.storePayloadByte b).assembled).raise .tagMiss).gotoSync)
    (lineErr : ∀ k, Q (.rxe k) (s.clearIdle.raise (.lineError k)).gotoSync)
    (fire : s.wdtEn = true → s.rxState ≠ .waitSync → s.wdtTimeout < sat32 s.idle →
      Q .tick ({ s with idle := sat32 s.idle }.raise .wdtTimeout).gotoSync)
    (tick : Q .tick { s with idle := sat32 s.idle })
    (pop : Q .txpop (s.popByte.respond (.txByte s.txByte)))
    (read : ∀ off, Q (.rd off 4) (s.respond (.readData (s.regRead (off.extractLsb' 2 8)))))
    (badRead : ∀ off size, Q (.rd off size) ((s.raise .busError).respond (.busError (some 0#32))))
    (badWrite : ∀ off size v, Q (.wr off size v) ((s.raise .busError).respond (.busError none)))
    (ctrlwr : ∀ v, Q (.wr 0x000#10 4 v) ({ s with wdtEn := v.getLsbD 0, irqEn := v.getLsbD 1 }.respond .writeOk))
    (consume : ∀ v, Q (.wr 0x010#10 4 v) ({ s with rdy := false }.respond .writeOk))
    (wdtset : ∀ v, Q (.wr 0x014#10 4 v) ({ s with wdtTimeout := v }.respond .writeOk))
    (softrstCntclr : ∀ v, v.getLsbD 0 = true → v.getLsbD 1 = true →
      Q (.wr 0x01C#10 4 v) (s.softReset.clearCounters.respond .writeOk))
    (softrst : ∀ v, v.getLsbD 0 = true → v.getLsbD 1 = false → Q (.wr 0x01C#10 4 v) (s.softReset.respond .writeOk))
    (cntclr : ∀ v, v.getLsbD 0 = false → v.getLsbD 1 = true → Q (.wr 0x01C#10 4 v) (s.clearCounters.respond .writeOk))
    (crcinit : ∀ v, Q (.wr 0x040#10 4 v) ({ s with crc := Config.crcInit }.respond .writeOk))
    (crcfeed : ∀ v, Q (.wr 0x044#10 4 v) ({ s with crc := crcStep s.crc (byteLane v 0) }.respond .writeOk))
    (txtag : ∀ v, Q (.wr 0x050#10 4 v) ({ s with txTag := v }.respond .writeOk))
    (txDrop : ∀ v, s.txBusy = true → Q (.wr 0x054#10 4 v) ((s.raise .txDrop).respond .writeOk))
    (txReject : ∀ v, s.txBusy = false → 250 < sendCount v → Q (.wr 0x054#10 4 v) ((s.raise .txReject).respond .writeOk))
    (txAccept : ∀ v, s.txBusy = false → sendCount v ≤ 250 → Q (.wr 0x054#10 4 v) (State.respond { s with
          txFrame := overlay (s.frameImage (sendCount v)) s.txFrame
          txTotal := BitVec.ofNat 9 (6 + sendCount v)
          txIdx := 0#9
          txBusy := true } .writeOk))
    (txstage : ∀ off v, (0x200 ≤ off.toNat ∧ off.toNat < 0x300) →
      Q (.wr off 4 v) ({ s with txStage := stageWord s.txStage (off.extractLsb' 2 6).toNat v }.respond .writeOk))
    (noOp : ∀ off v, Q (.wr off 4 v) (s.respond .writeOk))
    (hrst : Q .hrst s.hardReset) : Q e (s.after e) := by
  cases e with
  | rxb b =>
    simp only [State.after]
    rcases s.afterByte_cases b with ⟨h, ⟨hb, hx⟩ | ⟨hb, hx⟩⟩ | ⟨h, ⟨hb, hx⟩ | ⟨hb, hx⟩⟩ |
      ⟨h, ⟨hb, hx⟩ | ⟨hb, ⟨hr, hx⟩ | ⟨hr, hd, hx⟩ | ⟨hr, hd, hx⟩⟩⟩ <;> rw [hx]
    · exact sync b h hb
    · exact noSync b h hb
    · exact badLen b h hb
    · exact len b h hb
    · exact store b h hb
    · exact drop b h hb hr
    · exact install b h hb hr hd
    · exact tagMiss b h hb hr hd
  | rxe k => exact lineErr k
  | tick =>
    simp only [State.after]
    rcases State.wdtCheck_cases { s with idle := sat32 s.idle } with ⟨h1, h2, h3, hx⟩ | ⟨-, hx⟩ <;> rw [hx]
    · exact fire h1 h2 h3
    · exact tick
  | txpop => exact pop
  | rd off size =>
    simp only [State.after]
    split
    · rename_i h; rw [h.1]; exact read off
    · exact badRead off size
  | wr off size v =>
    simp only [State.after]
    split
    · rename_i h
      rw [h.1]
      rcases s.afterWrite_cases off v with ⟨rfl, hx⟩ | ⟨rfl, hx⟩ | ⟨rfl, hx⟩ | ⟨rfl, h0, h1, hx⟩ | ⟨rfl, h0, h1, hx⟩ |
        ⟨rfl, h0, h1, hx⟩ | ⟨rfl, hx⟩ | ⟨rfl, hx⟩ | ⟨rfl, hx⟩ | ⟨rfl, hb, hx⟩ | ⟨rfl, hb, hn, hx⟩ | ⟨rfl, hb, hn, hx⟩ |
        ⟨ho, hx⟩ | hx <;> rw [hx]
      · exact ctrlwr v
      · exact consume v
      · exact wdtset v
      · exact softrstCntclr v h0 h1
      · exact softrst v h0 h1
      · exact cntclr v h0 h1
      · exact crcinit v
      · exact crcfeed v
      · exact txtag v
      · exact txDrop v hb
      · exact txReject v hb hn
      · exact txAccept v hb hn
      · exact txstage off v ho
      · exact noOp off v
    · exact badWrite off size v
  | hrst => exact hrst

end Sys2Proof.Machine
end

