-- ==== Sys2Proof/Laws/Run.lean ====
section
/-! SUPPORT. Runs of several steps: one event at a time, and one run after another. -/

namespace Sys2Proof.Machine

/-- The first step of a run. -/
theorem run_succ_of {s s' : State} (k : Nat) (h : step s = .next s') : Sys2Proof.core.run (k + 1) s = Sys2Proof.core.run k s' := by
  have h' : Sys2Proof.core.step s = .next s' := h
  simp only [Host.Core.run, h']

/-- A run takes the event at the head of the inbox. -/
theorem run_event {s : State} {e : Event} {rest : List Event} (k : Nat) (h : s.inbox = e :: rest)
    (hp : e ≠ .txpop ∨ s.txBusy = true) : Sys2Proof.core.run (k + 1) s = Sys2Proof.core.run k ((s.take rest).after e) := by
  apply run_succ_of
  rw [step_next_iff h]
  refine ⟨?_, rfl⟩
  rintro ⟨h1, h2⟩
  rcases hp with hp | hp
  · exact hp h1
  · rw [h2] at hp
    cases hp

/-- A run of `a + b` steps is a run of `a` and then a run of `b`. -/
theorem run_add {s s' : State} (a b : Nat) (h : Sys2Proof.core.run a s = .next s') :
    Sys2Proof.core.run (a + b) s = Sys2Proof.core.run b s' := by
  induction a generalizing s with
  | zero =>
    cases h
    rw [Nat.zero_add]
  | succ a ih =>
    cases hs : step s with
    | next t =>
      rw [run_succ_of _ hs] at h
      rw [show a + 1 + b = (a + b) + 1 by omega, run_succ_of _ hs, ih h]
    | fault f => cases f
    | refused r =>
      have h' : Sys2Proof.core.step s = .refused r := hs
      simp only [Host.Core.run, h'] at h
      cases h

end Sys2Proof.Machine
end

