-- ==== Sys2Proof/Tests/Slice0.lean ====
section
/-! SUPPORT. Small tests: well-formedness, decoding of words written out from the spec's encodings, one step of each instruction with
the values of 95_test_vectors.md, and a witness for the hypotheses of every statement. -/

namespace Sys2Proof.Tests

open Sys2Proof Sys2Proof.Machine

/-! ### Helpers -/

/-- One instruction executed. -/
def after (i : Instr) (s : State) : Option State :=
  match exec i s with
  | .next t => some t
  | _ => none

/-- What the register at word index `w` reads after one instruction. -/
def reads (i : Instr) (s : State) (w : BitVec 8) : Option Word := (after i s).map (·.regRead w)

/-- What one instruction answers. -/
def answers (i : Instr) (s : State) : Option Output := (after i s).map (·.out)

/-- WAIT_PAYLOAD with `p` received of a payload of `len` bytes, idle 5. -/
def partway (p : List Byte) (len : Nat) : State :=
  { State.reset with
    rxState := .waitPayload, rxLen := BitVec.ofNat 8 len, rxCnt := BitVec.ofNat 8 p.length
    asmBuf := overlay p State.reset.asmBuf, idle := 5#32 }

/-- A packet with the payload `p` ready. -/
def holding (p : List Byte) : State :=
  { State.reset with rdy := true, rdyLen := BitVec.ofNat 8 p.length, rdyBuf := overlay p State.reset.rdyBuf }

/-- A frame in flight. -/
def sending (f : List Byte) (idx : Nat) : State :=
  { State.reset with
    txBusy := true, txFrame := overlay f State.reset.txFrame, txTotal := BitVec.ofNat 9 f.length, txIdx := BitVec.ofNat 9 idx }

/-- The payload of vector W1 of 95_test_vectors.md: OVRD and its 13 parameter bytes. -/
def w1Params : List Byte := [1#8, 0x32#8, 0x1E#8, 0#8, 0#8, 0#8, 0#8, 0#8, 0#8, 0#8, 0#8, 2#8, 1#8]

def w1Payload : List Byte := [0x4F#8, 0x56#8, 0x52#8, 0x44#8] ++ w1Params

/-- The frame of vector V-T7: "BYPS" without parameters. -/
def bypsFrame : List Byte := [0xAA#8, 4#8, 0x42#8, 0x59#8, 0x50#8, 0x53#8]

/-! ### Ill-formed terms are refused -/

theorem smoke_tag_params_fit :
    (Instr.gate (List.replicate 251 0#8)).wf Config.tables = true ∧
      (Instr.gate (List.replicate 252 0#8)).wf Config.tables = false := by
  simp only [Instr.wf, List.length_replicate]; decide

theorem smoke_each_tag_params_fit (params : List Byte) (h : params.length = 252) :
    ∀ i ∈ [Instr.gate params, .comp params, .awah params, .ovrd params, .dist params, .equl params, .harm params, .vibr params,
      .chor params, .octv params, .flng params, .phas params, .trem params, .fir params, .dely params, .nam params, .rvrb params,
      .gnrc params, .gen params, .util params, .loop params, .drum params, .metr params, .byps params, .midi params, .reql params,
      .flsh params, .rstd params, .pres params], i.wf Config.tables = false := by
  simp [Instr.wf, maxTagParams, h]

/-- An instance with a thirtieth tag "XXXX", a second alias "XY" of handler 29 and ALIAS_PARAM_OFFSET 4 (93_implementation_defined.md I4
to I6). -/
def extended : Config.Tables where
  tagTable := Config.catalogTags ++ [0x58585858#32]
  aliasTable := [(0x5145#16, 5), (0x5958#16, 29)]
  aliasParamOffset := 4
  expectedLen := [(3, 13), (29, 1)]

theorem smoke_tables_wf : Config.tables.wf ∧ extended.wf := by decide

theorem smoke_eq_params_fit : (Instr.eq (List.replicate 254 0#8)).wf Config.tables = false := by
  simp only [Instr.wf, List.length_replicate]; rfl

theorem smoke_eq_is_not_equl :
    (Instr.eq [0x55#8, 0x4C#8]).wf Config.tables = false ∧ (Instr.eq [0x55#8]).wf Config.tables = true := by decide

theorem smoke_eq_reaches_alias_params :
    (Instr.eq [1#8]).wf extended = false ∧ (Instr.eq [1#8, 2#8]).wf extended = true := by decide

theorem smoke_buserr_is_inadmissible :
    (Instr.buserr .read 0x018#10 4).wf Config.tables = false ∧ (Instr.buserr .read 0x018#10 2).wf Config.tables = true ∧
      (Instr.buserr .write 0x006#10 4).wf Config.tables = true := by
  decide

theorem smoke_softrst_has_bit0 : (Instr.softrst 2#32).wf Config.tables = false ∧ (Instr.softrst 3#32).wf Config.tables = true := by decide

theorem smoke_cntclr_has_bit1_only :
    (Instr.cntclr 1#32).wf Config.tables = false ∧ (Instr.cntclr 3#32).wf Config.tables = false ∧
      (Instr.cntclr 2#32).wf Config.tables = true := by decide

theorem smoke_crcinit_has_bit0 :
    (Instr.crcinit 0#32).wf Config.tables = false ∧ (Instr.crcinit 0xFFFFFFFE#32).wf Config.tables = false ∧
      (Instr.crcinit 1#32).wf Config.tables = true := by decide

theorem smoke_rdreg_leaves_narrower_rows :
    (Instr.rdreg 6#8).wf Config.tables = false ∧ (Instr.rdreg 18#8).wf Config.tables = false ∧
      (Instr.rdreg 64#8).wf Config.tables = false ∧ (Instr.rdreg 127#8).wf Config.tables = false ∧
      (Instr.rdreg 128#8).wf Config.tables = true := by decide

theorem smoke_rxb_row_asks_its_state :
    (Instr.rxbWaitSync 0#8).selectedIn .waitLen = false ∧ (Instr.rxbWaitLen 0#8).selectedIn .waitSync = false ∧
      (Instr.rxbWaitPayload 0#8).selectedIn .waitLen = false := by decide

/-! ### Decoding: words written out from the spec's encodings -/

/-- The wire bytes of the tags spelled in ASCII (30_encoding.md R78, R79), with one parameter byte. -/
theorem test_decode_gate_to_harm :
    decode Config.tables .waitSync (.payload [0x47#8, 0x41#8, 0x54#8, 0x45#8, 7#8]) = .ok (.gate [7#8]) ∧
    decode Config.tables .waitSync (.payload [0x43#8, 0x4F#8, 0x4D#8, 0x50#8, 7#8]) = .ok (.comp [7#8]) ∧
    decode Config.tables .waitSync (.payload [0x41#8, 0x57#8, 0x41#8, 0x48#8, 7#8]) = .ok (.awah [7#8]) ∧
    decode Config.tables .waitSync (.payload [0x4F#8, 0x56#8, 0x52#8, 0x44#8, 7#8]) = .ok (.ovrd [7#8]) ∧
    decode Config.tables .waitSync (.payload [0x44#8, 0x49#8, 0x53#8, 0x54#8, 7#8]) = .ok (.dist [7#8]) ∧
    decode Config.tables .waitSync (.payload [0x45#8, 0x51#8, 0x55#8, 0x4C#8, 7#8]) = .ok (.equl [7#8]) ∧
    decode Config.tables .waitSync (.payload [0x48#8, 0x41#8, 0x52#8, 0x4D#8, 7#8]) = .ok (.harm [7#8]) := by decide

/-- The wire bytes of the tags spelled in ASCII (30_encoding.md R78, R79), with one parameter byte. -/
theorem test_decode_vibr_to_fir :
    decode Config.tables .waitSync (.payload [0x56#8, 0x49#8, 0x42#8, 0x52#8, 7#8]) = .ok (.vibr [7#8]) ∧
    decode Config.tables .waitSync (.payload [0x43#8, 0x48#8, 0x4F#8, 0x52#8, 7#8]) = .ok (.chor [7#8]) ∧
    decode Config.tables .waitSync (.payload [0x4F#8, 0x43#8, 0x54#8, 0x56#8, 7#8]) = .ok (.octv [7#8]) ∧
    decode Config.tables .waitSync (.payload [0x46#8, 0x4C#8, 0x4E#8, 0x47#8, 7#8]) = .ok (.flng [7#8]) ∧
    decode Config.tables .waitSync (.payload [0x50#8, 0x48#8, 0x41#8, 0x53#8, 7#8]) = .ok (.phas [7#8]) ∧
    decode Config.tables .waitSync (.payload [0x54#8, 0x52#8, 0x45#8, 0x4D#8, 7#8]) = .ok (.trem [7#8]) ∧
    decode Config.tables .waitSync (.payload [0x46#8, 0x49#8, 0x52#8, 0x20#8, 7#8]) = .ok (.fir [7#8]) := by decide

/-- The wire bytes of the tags spelled in ASCII (30_encoding.md R78, R79), with one parameter byte. -/
theorem test_decode_dely_to_gnrc :
    decode Config.tables .waitSync (.payload [0x44#8, 0x45#8, 0x4C#8, 0x59#8, 7#8]) = .ok (.dely [7#8]) ∧
    decode Config.tables .waitSync (.payload [0x4E#8, 0x41#8, 0x4D#8, 0x20#8, 7#8]) = .ok (.nam [7#8]) ∧
    decode Config.tables .waitSync (.payload [0x52#8, 0x56#8, 0x52#8, 0x42#8, 7#8]) = .ok (.rvrb [7#8]) ∧
    decode Config.tables .waitSync (.payload [0x47#8, 0x4E#8, 0x52#8, 0x43#8, 7#8]) = .ok (.gnrc [7#8]) := by decide

/-- The wire bytes of the tags spelled in ASCII (30_encoding.md R78, R79), with one parameter byte. -/
theorem test_decode_gen_to_byps :
    decode Config.tables .waitSync (.payload [0x47#8, 0x45#8, 0x4E#8, 0x20#8, 7#8]) = .ok (.gen [7#8]) ∧
    decode Config.tables .waitSync (.payload [0x55#8, 0x54#8, 0x49#8, 0x4C#8, 7#8]) = .ok (.util [7#8]) ∧
    decode Config.tables .waitSync (.payload [0x4C#8, 0x4F#8, 0x4F#8, 0x50#8, 7#8]) = .ok (.loop [7#8]) ∧
    decode Config.tables .waitSync (.payload [0x44#8, 0x52#8, 0x55#8, 0x4D#8, 7#8]) = .ok (.drum [7#8]) ∧
    decode Config.tables .waitSync (.payload [0x4D#8, 0x45#8, 0x54#8, 0x52#8, 7#8]) = .ok (.metr [7#8]) ∧
    decode Config.tables .waitSync (.payload [0x42#8, 0x59#8, 0x50#8, 0x53#8, 7#8]) = .ok (.byps [7#8]) := by decide

/-- The wire bytes of the tags spelled in ASCII (30_encoding.md R78, R79), with one parameter byte. -/
theorem test_decode_midi_to_pres :
    decode Config.tables .waitSync (.payload [0x4D#8, 0x49#8, 0x44#8, 0x49#8, 7#8]) = .ok (.midi [7#8]) ∧
    decode Config.tables .waitSync (.payload [0x52#8, 0x45#8, 0x51#8, 0x4C#8, 7#8]) = .ok (.reql [7#8]) ∧
    decode Config.tables .waitSync (.payload [0x46#8, 0x4C#8, 0x53#8, 0x48#8, 7#8]) = .ok (.flsh [7#8]) ∧
    decode Config.tables .waitSync (.payload [0x52#8, 0x53#8, 0x54#8, 0x44#8, 7#8]) = .ok (.rstd [7#8]) ∧
    decode Config.tables .waitSync (.payload [0x50#8, 0x52#8, 0x45#8, 0x53#8, 7#8]) = .ok (.pres [7#8]) := by decide

/-- EQ (30_encoding.md R80), the shortest payload, and what selects no row (30_encoding.md R81, 43_tag_demux.md R182). -/
theorem test_decode_eq :
    decode Config.tables .waitSync (.payload [0x45#8, 0x51#8]) = .ok (.eq []) ∧
    decode Config.tables .waitSync (.payload [0x45#8, 0x51#8, 1#8, 2#8]) = .ok (.eq [1#8, 2#8]) ∧
    decode Config.tables .waitSync (.payload []) = .error .emptyPayload ∧
    decode Config.tables .waitSync (.payload [0x45#8]) = .error .tagShortMiss ∧
    decode Config.tables .waitSync (.payload [0x47#8, 0x45#8, 0x4E#8, 0x58#8]) = .error .tagMiss := by decide

/-- Entries an instance adds have no row of the opcode table: the decoder rejects them by name, and they are no misses. -/
theorem test_decode_extended :
    decode extended .waitSync (.payload [0x58#8, 0x58#8, 0x58#8, 0x58#8]) = .error .tableExtension ∧
    decode extended .waitSync (.payload [0x58#8, 0x59#8, 1#8, 2#8]) = .error .tableExtension ∧
    decode extended .waitSync (.payload [0x45#8, 0x51#8, 1#8]) = .error .tagShortMiss ∧
    decode extended .waitSync (.payload [0x45#8, 0x51#8, 1#8, 2#8]) = .ok (.eq [1#8, 2#8]) := by decide

/-- The event rows (30_encoding.md R90); the receive state picks the RXB row. -/
theorem test_decode_events :
    decode Config.tables .waitSync (.event (.rxb 0xAA#8)) = .ok (.rxbWaitSync 0xAA#8) ∧
    decode Config.tables .waitLen (.event (.rxb 0xAA#8)) = .ok (.rxbWaitLen 0xAA#8) ∧
    decode Config.tables .waitPayload (.event (.rxb 0xAA#8)) = .ok (.rxbWaitPayload 0xAA#8) ∧
    decode Config.tables .waitLen (.event (.rxe .parity)) = .ok (.rxe .parity) ∧
    decode Config.tables .waitLen (.event .tick) = .ok .tick ∧
    decode Config.tables .waitLen (.event .txpop) = .ok .txpop ∧
    decode Config.tables .waitLen (.event .hrst) = .ok .hrst ∧
    decode Config.tables .waitSync (.event (.rd 0x018#10 2)) = .ok (.buserr .read 0x018#10 2) ∧
    decode Config.tables .waitSync (.event (.wr 0x044#10 1 0x31#32)) = .ok (.buserr .write 0x044#10 1) := by decide

/-- The host writes at the offsets of 10_state.md R40 (30_encoding.md R91). -/
theorem test_decode_host_writes :
    decode Config.tables .waitSync (.event (.wr 0x000#10 4 2#32)) = .ok (.ctrlwr 2#32) ∧
    decode Config.tables .waitSync (.event (.wr 0x010#10 4 0#32)) = .ok (.consume 0#32) ∧
    decode Config.tables .waitSync (.event (.wr 0x014#10 4 3#32)) = .ok (.wdtset 3#32) ∧
    decode Config.tables .waitSync (.event (.wr 0x01C#10 4 1#32)) = .ok (.softrst 1#32) ∧
    decode Config.tables .waitSync (.event (.wr 0x01C#10 4 2#32)) = .ok (.cntclr 2#32) ∧
    decode Config.tables .waitSync (.event (.wr 0x01C#10 4 3#32)) = .ok (.softrst 3#32) ∧
    decode Config.tables .waitSync (.event (.wr 0x01C#10 4 4#32)) = .error .writeWithoutEffect ∧
    decode Config.tables .waitSync (.event (.wr 0x040#10 4 1#32)) = .ok (.crcinit 1#32) ∧
    decode Config.tables .waitSync (.event (.wr 0x040#10 4 2#32)) = .error .writeWithoutEffect ∧
    decode Config.tables .waitSync (.event (.wr 0x044#10 4 0x31#32)) = .ok (.crcfeed 0x31#32) ∧
    decode Config.tables .waitSync (.event (.wr 0x050#10 4 0x53455250#32)) = .ok (.txtag 0x53455250#32) ∧
    decode Config.tables .waitSync (.event (.wr 0x054#10 4 2#32)) = .ok (.txsend 2#32) ∧
    decode Config.tables .waitSync (.event (.wr 0x200#10 4 9#32)) = .ok (.txstage 0#6 9#32) ∧
    decode Config.tables .waitSync (.event (.wr 0x2FC#10 4 9#32)) = .ok (.txstage 63#6 9#32) ∧
    decode Config.tables .waitSync (.event (.wr 0x004#10 4 9#32)) = .error .writeWithoutEffect := by decide

/-- The host reads (30_encoding.md R91); the narrower rows are read first. -/
theorem test_decode_host_reads :
    decode Config.tables .waitSync (.event (.rd 0x048#10 4)) = .ok .crcread ∧
    decode Config.tables .waitSync (.event (.rd 0x018#10 4)) = .ok .demuxread ∧
    decode Config.tables .waitSync (.event (.rd 0x100#10 4)) = .ok (.rxread 0#6) ∧
    decode Config.tables .waitSync (.event (.rd 0x1FC#10 4)) = .ok (.rxread 63#6) ∧
    decode Config.tables .waitSync (.event (.rd 0x004#10 4)) = .ok (.rdreg 1#8) ∧
    decode Config.tables .waitSync (.event (.rd 0x3FC#10 4)) = .ok (.rdreg 255#8) := by decide

/-- Numbers of spec/opcode_table.json. -/
theorem test_decode_table_words :
    decodeTableWord 32 0x4452564F = some (.ovrd []) ∧ decodeTableWord 16 0x5145 = some (.eq []) ∧
      decodeTableWord 16 0x010 = some (.consume 0#32) ∧ decodeTableWord 16 0x200 = some (.txstage 0#6 0#32) ∧
      decodeTableWord 16 0x048 = some .crcread ∧ decodeTableWord 16 0x040 = some (.crcinit 1#32) := by decide

set_option maxRecDepth 4000 in
/-- The step runs the row placed for it. -/
theorem test_step_runs_placed_word :
    (match step (State.reset.withFetchWord 32 0x45544147) with
      | .next t => t.regRead 6#8
      | _ => 0#32) = 0x40000003#32 := by decide

/-! ### One step of each instruction -/

/-- One exec of each tag row after reset: DEMUX reads VALID, HIT, the handler index of 30_encoding.md R79, PARAM_LEN 1, PARAM_OFF 4. -/
theorem test_handler_gate_to_harm :
    reads (.gate [7#8]) State.reset 6#8 = some 0x40010003#32 ∧
    reads (.comp [7#8]) State.reset 6#8 = some 0x40010103#32 ∧
    reads (.awah [7#8]) State.reset 6#8 = some 0x40010203#32 ∧
    reads (.ovrd [7#8]) State.reset 6#8 = some 0x42010303#32 ∧
    reads (.dist [7#8]) State.reset 6#8 = some 0x40010403#32 ∧
    reads (.equl [7#8]) State.reset 6#8 = some 0x40010503#32 ∧
    reads (.harm [7#8]) State.reset 6#8 = some 0x40010603#32 := by decide

theorem test_handler_vibr_to_fir :
    reads (.vibr [7#8]) State.reset 6#8 = some 0x40010703#32 ∧
    reads (.chor [7#8]) State.reset 6#8 = some 0x40010803#32 ∧
    reads (.octv [7#8]) State.reset 6#8 = some 0x40010903#32 ∧
    reads (.flng [7#8]) State.reset 6#8 = some 0x40010A03#32 ∧
    reads (.phas [7#8]) State.reset 6#8 = some 0x40010B03#32 ∧
    reads (.trem [7#8]) State.reset 6#8 = some 0x40010C03#32 ∧
    reads (.fir [7#8]) State.reset 6#8 = some 0x40010D03#32 := by decide

theorem test_handler_dely_to_gnrc :
    reads (.dely [7#8]) State.reset 6#8 = some 0x40010E03#32 ∧
    reads (.nam [7#8]) State.reset 6#8 = some 0x40010F03#32 ∧
    reads (.rvrb [7#8]) State.reset 6#8 = some 0x40011003#32 ∧
    reads (.gnrc [7#8]) State.reset 6#8 = some 0x40011103#32 := by decide

theorem test_handler_gen_to_byps :
    reads (.gen [7#8]) State.reset 6#8 = some 0x40011203#32 ∧
    reads (.util [7#8]) State.reset 6#8 = some 0x40011303#32 ∧
    reads (.loop [7#8]) State.reset 6#8 = some 0x40011403#32 ∧
    reads (.drum [7#8]) State.reset 6#8 = some 0x40011503#32 ∧
    reads (.metr [7#8]) State.reset 6#8 = some 0x40011603#32 ∧
    reads (.byps [7#8]) State.reset 6#8 = some 0x40011703#32 := by decide

theorem test_handler_midi_to_pres :
    reads (.midi [7#8]) State.reset 6#8 = some 0x40011803#32 ∧
    reads (.reql [7#8]) State.reset 6#8 = some 0x40011903#32 ∧
    reads (.flsh [7#8]) State.reset 6#8 = some 0x40011A03#32 ∧
    reads (.rstd [7#8]) State.reset 6#8 = some 0x40011B03#32 ∧
    reads (.pres [7#8]) State.reset 6#8 = some 0x40011C03#32 := by decide

/-- W1: DEMUX after the OVRD frame, and the words of RX_BUF. -/
theorem test_ovrd_w1 : reads (.ovrd w1Params) State.reset 6#8 = some 0x410D0303#32 := by decide

theorem test_ovrd_w1_rx_buf :
    reads (.ovrd w1Params) State.reset 65#8 = some 0x001E3201#32 ∧ reads (.ovrd w1Params) State.reset 67#8 = some 0x02000000#32 ∧
      reads (.ovrd w1Params) State.reset 68#8 = some 1#32 := by decide

/-- W9 and V-R5: the alias, with and without parameters. -/
theorem test_eq_alias :
    reads (.eq [1#8, 2#8]) State.reset 6#8 = some 0x20020507#32 ∧ reads (.eq []) State.reset 6#8 = some 0x2000050F#32 := by decide

/-- The machine runs with its instance's tables: the added tag hits handler 29 with its expected length, the added alias hits it with
the parameters at offset 4, and an added alias too short for the offset misses (43_tag_demux.md R180). -/
theorem test_demux_extended :
    { holding [0x58#8, 0x58#8, 0x58#8, 0x58#8, 7#8] with tables := extended }.regRead 6#8 = 0x41011D03#32 ∧
      { holding [0x58#8, 0x59#8, 1#8, 2#8, 7#8] with tables := extended }.regRead 6#8 = 0x41011D07#32 ∧
      { holding [0x58#8, 0x59#8, 1#8] with tables := extended }.regRead 6#8 = 0x40001F09#32 := by decide

set_option maxRecDepth 4000 in
/-- The byte that completes an added tag's packet installs it as a hit: no miss is counted or recorded (43_tag_demux.md R185). -/
theorem test_extended_tag_installs :
    let s : State := { partway [0x58#8, 0x58#8, 0x58#8] 4 with tables := extended }
    reads (.rxbWaitPayload 0x58#8) s 12#8 = some 1#32 ∧ reads (.rxbWaitPayload 0x58#8) s 13#8 = some 0#32 ∧
      reads (.rxbWaitPayload 0x58#8) s 6#8 = some 0x42001D03#32 := by decide

/-- V-D11: a 4-byte hit on the same handler is no alias hit. -/
theorem test_equl_no_alias : reads (.equl [1#8, 0x32#8, 0x3C#8]) State.reset 6#8 = some 0x40030503#32 := by decide

/-- P4 step 2: BYPS while the OVRD packet is ready is dropped and counted. -/
theorem test_byps_dropped :
    reads (.byps [1#8]) (holding w1Payload) 10#8 = some 1#32 ∧ reads (.byps [1#8]) (holding w1Payload) 6#8 = some 0x410D0303#32 := by
  decide

/-- V-R2: AA starts a frame; any other byte is hunted. -/
theorem test_rxb_wait_sync :
    reads (.rxbWaitSync 0xAA#8) State.reset 1#8 = some 1#32 ∧ reads (.rxbWaitSync 0x55#8) State.reset 1#8 = some 0#32 := by decide

/-- W2 and W3: length 0 is counted, and AA is a length. -/
theorem test_rxb_wait_len :
    reads (.rxbWaitLen 0#8) { State.reset with rxState := .waitLen } 8#8 = some 0#32 ∧
      reads (.rxbWaitLen 0#8) { State.reset with rxState := .waitLen } 9#8 = some 1#32 ∧
      reads (.rxbWaitLen 0xAA#8) { State.reset with rxState := .waitLen } 1#8 = some 0x00AA0002#32 := by decide

/-- V-R11: a counter wraps, and the code is recorded. -/
theorem test_rxb_wait_len_counter_wraps :
    reads (.rxbWaitLen 0#8) { State.reset with rxState := .waitLen, cnt := { lenErr := 0xFFFF#16 } } 9#8 = some 0#32 ∧
      reads (.rxbWaitLen 0#8) { State.reset with rxState := .waitLen, cnt := { lenErr := 0xFFFF#16 } } 2#8 = some 4#32 := by decide

/-- V-R3: three of seventeen bytes received; idle is cleared. -/
theorem test_rxb_wait_payload_stores :
    reads (.rxbWaitPayload 0x52#8) (partway [0x4F#8, 0x56#8] 17) 1#8 = some 0x00110302#32 ∧
      reads (.rxbWaitPayload 0x52#8) (partway [0x4F#8, 0x56#8] 17) 19#8 = some 0#32 := by decide

set_option maxRecDepth 4000 in
/-- V-R4: a payload of one byte is installed as a miss with TAG_SHORT, counted, code 7. -/
theorem test_rxb_wait_payload_completes :
    reads (.rxbWaitPayload 0x45#8) (partway [] 1) 6#8 = some 0x40001F09#32 ∧
      reads (.rxbWaitPayload 0x45#8) (partway [] 1) 13#8 = some 1#32 ∧ reads (.rxbWaitPayload 0x45#8) (partway [] 1) 2#8 = some 7#32 ∧
      reads (.rxbWaitPayload 0x45#8) (partway [] 1) 1#8 = some 4#32 := by decide

/-- V-E1 to V-E3: the code of each line error, from every receive state. -/
theorem test_rxe_codes :
    reads (.rxe .parity) (partway [0x4F#8, 0x56#8, 0x52#8] 17) 2#8 = some 2#32 ∧
      reads (.rxe .parity) (partway [0x4F#8, 0x56#8, 0x52#8] 17) 1#8 = some 0#32 ∧
      reads (.rxe .framing) { State.reset with rxState := .waitLen } 2#8 = some 1#32 ∧
      reads (.rxe .overrun) State.reset 2#8 = some 3#32 ∧ reads (.rxe .overrun) State.reset 8#8 = some 1#32 := by decide

/-- V-W1: threshold 2; the tick that makes idle 3 fires, the one that makes it 2 does not. -/
theorem test_tick_watchdog :
    reads .tick { State.reset with rxState := .waitLen, wdtEn := true, wdtTimeout := 2#32, idle := 2#32 } 11#8 = some 1#32 ∧
      reads .tick { State.reset with rxState := .waitLen, wdtEn := true, wdtTimeout := 2#32, idle := 2#32 } 2#8 = some 6#32 ∧
      reads .tick { State.reset with rxState := .waitLen, wdtEn := true, wdtTimeout := 2#32, idle := 1#32 } 1#8 = some 1#32 := by decide

/-- V-W5, V-W6, V-W7: never in WAIT_SYNC; idle saturates; never beyond the largest threshold. -/
theorem test_tick_edges :
    reads .tick { State.reset with wdtEn := true, wdtTimeout := 0#32 } 11#8 = some 0#32 ∧
      reads .tick { State.reset with idle := 0xFFFFFFFF#32 } 19#8 = some 0xFFFFFFFF#32 ∧
      reads .tick { State.reset with rxState := .waitLen, wdtEn := true, wdtTimeout := 0xFFFFFFFF#32, idle := 0xFFFFFFFF#32 } 1#8 =
        some 1#32 := by decide

/-- V-T4: the byte at tx_idx leaves, and the slot is free after the last one. -/
theorem test_txpop_bytes :
    answers .txpop (sending bypsFrame 1) = some (.txByte 4#8) ∧ reads .txpop (sending bypsFrame 1) 1#8 = some 8#32 ∧
      answers .txpop (sending bypsFrame 5) = some (.txByte 0x53#8) ∧ reads .txpop (sending bypsFrame 5) 1#8 = some 0#32 := by decide

/-- 41_tx_framer.md R146: a TXPOP without a frame in flight is refused. -/
theorem test_txpop_idle_refused : exec .txpop State.reset = .refused .txpopWithoutFrame := rfl

/-- V-B1, V-B2: an error response, code 10, nothing performed. -/
theorem test_buserr :
    answers (.buserr .read 0x006#10 4) State.reset = some (.busError (some 0#32)) ∧
      reads (.buserr .write 0x044#10 1) State.reset 18#8 = some 0xFFFF#32 ∧ reads (.buserr .write 0x044#10 1) State.reset 2#8 = some 10#32 := by
  decide

/-- V-Z2: after HRST from a busy state. -/
theorem test_hrst :
    reads .hrst { sending bypsFrame 2 with wdtEn := true, crc := 0x947E#16, rdy := true, lastErr := 5#4 } 1#8 = some 0#32 ∧
      reads .hrst { sending bypsFrame 2 with wdtEn := true, crc := 0x947E#16, rdy := true, lastErr := 5#4 } 18#8 = some 0xFFFF#32 ∧
      reads .hrst { sending bypsFrame 2 with wdtEn := true, crc := 0x947E#16, rdy := true, lastErr := 5#4 } 6#8 = some 0x1F00#32 := by
  decide

/-- V-B7: reserved bits of CTRL are ignored. V-H4: IRQ follows at once. -/
theorem test_ctrlwr :
    reads (.ctrlwr 0xFFFFFFFF#32) State.reset 0#8 = some 3#32 ∧ reads (.ctrlwr 2#32) (holding w1Payload) 1#8 = some 0x14#32 := by decide

/-- V-H1: the released packet reads as nothing. -/
theorem test_consume :
    reads (.consume 0#32) (holding w1Payload) 1#8 = some 0#32 ∧ reads (.consume 0#32) (holding w1Payload) 3#8 = some 0#32 ∧
      reads (.consume 0#32) (holding w1Payload) 64#8 = some 0#32 := by decide

/-- 40_rx_framer.md R112: the threshold is written and idle is not. -/
theorem test_wdtset :
    reads (.wdtset 3#32) (partway [] 5) 5#8 = some 3#32 ∧ reads (.wdtset 3#32) (partway [] 5) 19#8 = some 5#32 := by decide

/-- V-H3: SOFTRST abandons the frame and clears idle. V-H5: with both bits it also clears, and keeps the packet. -/
theorem test_softrst :
    reads (.softrst 1#32) (partway [0x4F#8] 17) 1#8 = some 0#32 ∧ reads (.softrst 1#32) (partway [0x4F#8] 17) 19#8 = some 0#32 ∧
      reads (.softrst 3#32) { holding w1Payload with irqEn := true, cnt := { pkt := 1#16 } } 1#8 = some 0x14#32 ∧
      reads (.softrst 3#32) { holding w1Payload with irqEn := true, cnt := { pkt := 1#16 } } 12#8 = some 0#32 := by decide

/-- V-H6: counters and last_err clear; the framer does not. -/
theorem test_cntclr :
    reads (.cntclr 2#32) { partway [0x4F#8] 17 with cnt := { txRej := 4#16 }, lastErr := 9#4 } 15#8 = some 0#32 ∧
      reads (.cntclr 2#32) { partway [0x4F#8] 17 with cnt := { txRej := 4#16 }, lastErr := 9#4 } 2#8 = some 0#32 ∧
      reads (.cntclr 2#32) { partway [0x4F#8] 17 with cnt := { txRej := 4#16 }, lastErr := 9#4 } 1#8 = some 0x00110102#32 := by decide

/-- 95_test_vectors.md section 2.6: CRC_CTRL bit 0 restarts, value 0 does not. -/
theorem test_crcinit :
    reads (.crcinit 1#32) { State.reset with crc := 0x947E#16 } 18#8 = some 0xFFFF#32 ∧
      reads (.crcinit 0#32) { State.reset with crc := 0x947E#16 } 18#8 = some 0x947E#32 := by decide

/-- 95_test_vectors.md section 2.6: only the low byte is fed; the second byte of "123456789". -/
theorem test_crcfeed :
    reads (.crcfeed 0x131#32) State.reset 18#8 = some 0x947E#32 ∧
      reads (.crcfeed 0x32#32) { State.reset with crc := 0x947E#16 } 18#8 = some 0xF595#32 ∧
      reads (.crcfeed 0x80#32) { State.reset with crc := 0#16 } 18#8 = some 0xA001#32 := by decide

set_option maxRecDepth 4000 in
/-- V-C10 and V-C15: the CRC of "123456789", and the residue. -/
theorem test_crc16_check :
    crc16 [0x31#8, 0x32#8, 0x33#8, 0x34#8, 0x35#8, 0x36#8, 0x37#8, 0x38#8, 0x39#8] = 0x4B37#16 ∧
      crc16 [0x31#8, 0x32#8, 0x33#8, 0x34#8, 0x35#8, 0x36#8, 0x37#8, 0x38#8, 0x39#8, 0x37#8, 0x4B#8] = 0#16 := by decide

theorem test_txtag : reads (.txtag 0x53455250#32) State.reset 20#8 = some 0x53455250#32 := by decide

set_option maxRecDepth 4000 in
/-- V-T1: the frame of nine bytes. V-T5: one byte too many is rejected. -/
theorem test_txsend_accepts_and_rejects :
    ((after (.txsend 3#32) { State.reset with txTag := 0x4452564F#32, txStage := stageWord State.reset.txStage 0 0x001E3201#32 }).map
        fun t => (firstBytes t.txFrame 9, t.txTotal, t.txBusy)) =
      some ([0xAA#8, 7#8, 0x4F#8, 0x56#8, 0x52#8, 0x44#8, 1#8, 0x32#8, 0x1E#8], 9#9, true) ∧
      reads (.txsend 251#32) State.reset 15#8 = some 1#32 ∧ reads (.txsend 251#32) State.reset 2#8 = some 9#32 := by decide

/-- V-T3: busy is tested first. V-T6: n = v[7:0] = 250 fills the frame. -/
theorem test_txsend_busy_and_full :
    reads (.txsend 251#32) (sending bypsFrame 0) 14#8 = some 1#32 ∧ reads (.txsend 251#32) (sending bypsFrame 0) 15#8 = some 0#32 ∧
      ((after (.txsend 0x1FA#32) State.reset).map fun t => (firstBytes t.txFrame 2, t.txTotal)) = some ([0xAA#8, 0xFE#8], 256#9) := by
  decide

set_option maxRecDepth 4000 in
/-- V-B8, V-B9: bytes 248 and 249 are stored, 250 and above do not exist. -/
theorem test_txstage_end :
    reads (.txstage 62#6 0x44332211#32) State.reset 190#8 = some 0x2211#32 ∧
      reads (.txstage 63#6 0x88776655#32) State.reset 191#8 = some 0#32 := by decide

set_option maxRecDepth 4000 in
theorem test_txstage_lanes :
    reads (.txstage 0#6 0x00004B37#32) State.reset 128#8 = some 0x4B37#32 ∧
      reads (.txstage 1#6 0x44332211#32) State.reset 128#8 = some 0#32 := by decide

/-- V-B5, V-B6: unmapped offsets and write-only registers read 0. STATUS as in P1 step 5. -/
theorem test_rdreg :
    answers (.rdreg 0xC0#8) (holding w1Payload) = some (.readData 0#32) ∧ answers (.rdreg 4#8) (holding w1Payload) = some (.readData 0#32) ∧
      answers (.rdreg 1#8) (partway [0x4F#8, 0x56#8] 17) = some (.readData 0x00110202#32) := by decide

theorem test_crcread : answers .crcread { State.reset with crc := 0x4B37#16 } = some (.readData 0x00004B37#32) := by decide

/-- V-D17 and W1. -/
theorem test_demuxread :
    answers .demuxread State.reset = some (.readData 0x00001F00#32) ∧ answers .demuxread (holding w1Payload) = some (.readData 0x410D0303#32) := by
  decide

/-- V-R7's masking, W1's last word. -/
theorem test_rxread :
    answers (.rxread 4#6) (holding w1Payload) = some (.readData 1#32) ∧ answers (.rxread 0#6) State.reset = some (.readData 0#32) := by decide

/-- V-P9, V-P3 and V-P8's kind: the size is checked first, then the magic. -/
theorem test_preset_size_first : presetCheck [0x51#8, 0x4D#8] = ⟨.badSize, false⟩ := by decide

/-- V-O1's order in one cycle. -/
theorem test_cycle_order :
    Cycle.events { host := some (.wr 0x010#10 4 0#32), rx := some (.byte 1#8), txpop := true, tick := true } =
      [.wr 0x010#10 4 0#32, .rxb 1#8, .txpop, .tick] := by decide

/-! ### Witnesses: concrete states and operands that meet every statement's hypotheses together -/

/-- A ready packet, the framer in WAIT_PAYLOAD with two of three bytes, a frame in flight: the invariant holds. -/
def busy : State :=
  { sending bypsFrame 2 with
    rdy := true, rdyLen := 17#8, rdyBuf := overlay w1Payload State.reset.rdyBuf, rxState := .waitPayload, rxLen := 3#8, rxCnt := 2#8
    asmBuf := overlay [0x45#8, 0x51#8] State.reset.asmBuf, irqEn := true }

/-- `s` with one event presented. -/
def facing (e : Event) (s : State) : State := { s with inbox := [e] }

theorem busy_inv : busy.Inv := by decide

theorem witness_DecodeOfEncodeIsIdentity :
    Config.tables.wf ∧ (Instr.ovrd [1#8]).wf Config.tables = true ∧ (Instr.ovrd [1#8]).selectedIn .waitLen = true ∧
      (Instr.eq [0x55#8]).wf Config.tables = true ∧
      (Instr.eq [0x55#8]).selectedIn .waitSync = true ∧ (Instr.rxbWaitLen 0#8).wf Config.tables = true ∧
      (Instr.rxbWaitLen 0#8).selectedIn .waitLen = true ∧ (Instr.txstage 63#6 1#32).wf Config.tables = true ∧
      (Instr.rdreg 255#8).wf Config.tables = true ∧ (Instr.buserr .write 0x3FF#10 4).wf Config.tables = true := by decide

theorem witness_DecodedInstrIsWellFormed :
    decode Config.tables .waitPayload (.event (.rxb 0xAA#8)) = .ok (.rxbWaitPayload 0xAA#8) := by decide

theorem witness_DecodedPayloadEncodesBack :
    decode Config.tables .waitSync (.payload [0x45#8, 0x51#8, 0x55#8]) = .ok (.eq [0x55#8]) := by decide

theorem witness_TagRowsAgreeWithDemux :
    (∃ (t : Config.Tables) (p : List Byte), t.wf ∧ p ≠ [] ∧ p.length ≤ 255 ∧
      ∃ i tag h params, decodePayload t p = .ok i ∧ i.tagRow = some (tag, h, params)) ∧
      (∃ (t : Config.Tables) (p : List Byte), t.wf ∧ p ≠ [] ∧ p.length ≤ 255 ∧ ∃ params, decodePayload t p = .ok (.eq params)) ∧
      ∃ (t : Config.Tables) (p : List Byte), t.wf ∧ p ≠ [] ∧ p.length ≤ 255 ∧ decodePayload t p = .error .tableExtension :=
  ⟨⟨Config.tables, [0x50#8, 0x52#8, 0x45#8, 0x53#8], by decide, by decide, by decide, .pres [], _, _, _, by decide, rfl⟩,
    ⟨Config.tables, [0x45#8, 0x51#8], by decide, by decide, by decide, [], by decide⟩,
    extended, [0x58#8, 0x58#8, 0x58#8, 0x58#8], by decide, by decide, by decide, by decide⟩

theorem witness_StepRunsDecodedEvent :
    busy.inbox = [] ∧ (facing .tick busy).inbox = .tick :: [] ∧ decodeEvent busy.rxState .tick = some .tick ∧
      decodeEvent busy.rxState (.wr 0x004#10 4 1#32) = none := by decide

theorem witness_CompletingByteRunsTagRow :
    ∃ (s : State) (b : Byte) (rest : List Event) (i : Instr), s.inbox = .rxb b :: rest ∧ s.rxState = .waitPayload ∧
      s.rxCnt.toNat + 1 = s.rxLen.toNat ∧ decodePayload s.tables (firstBytes s.asmBuf s.rxCnt.toNat ++ [b]) = .ok i :=
  ⟨facing (.rxb 7#8) busy, 7#8, [], .eq [7#8], rfl, rfl, rfl, by decide⟩

theorem witness_OnlyIdleTxpopIsRefused :
    step (facing .txpop State.reset) = .refused .txpopWithoutFrame ∧ State.reset.rxState ≠ .waitLen ∧
      State.reset.rxState ≠ .waitPayload ∧ busy.rxState ≠ .waitSync := ⟨rfl, by decide, by decide, by decide⟩

theorem witness_EveryStepKeepsInv : ∃ s t : State, s.Inv ∧ step s = .next t :=
  ⟨facing .txpop busy, _, by decide, rfl⟩

theorem witness_ReadyPacketIsStable :
    ∃ (s t : State) (e : Event) (rest : List Event), s.rdy = true ∧ s.inbox = e :: rest ∧ e ≠ .hrst ∧ step s = .next t ∧ t.rdy = false :=
  ⟨facing (.wr 0x010#10 4 0#32) busy, _, _, [], rfl, rfl, by decide, rfl, rfl⟩

/-- A state that differs from `busy` in bytes no rule reads. -/
def busyOther : State :=
  { busy with
    asmBuf := busy.asmBuf.setIfInBounds 2 9#8, rdyBuf := busy.rdyBuf.setIfInBounds 17 9#8
    txFrame := busy.txFrame.setIfInBounds 6 9#8, freeCtr := 4 }

set_option maxRecDepth 4000 in
theorem witness_UnspecifiedBytesAreUnobservable :
    (∃ s t s' : State, s.Inv ∧ SameToAgents s t ∧ s.rdyBuf ≠ t.rdyBuf ∧ step s = .next s') ∧
      ∃ s t : State, s.Inv ∧ SameToAgents s t ∧ step s = .refused .txpopWithoutFrame := by
  refine ⟨⟨facing .txpop busy, facing .txpop busyOther, _, by decide, ⟨rfl, ?_, fun _ => ?_, fun _ => ?_⟩, by decide, rfl⟩,
    facing .txpop State.reset, facing .txpop { State.reset with freeCtr := 3 }, by decide,
    ⟨rfl, ?_, fun _ => ?_, fun _ => ?_⟩, rfl⟩
  all_goals first
    | exact fun i _ _ => rfl
    | (intro i _ h; change i < _ at h; revert h; revert i; decide)

theorem witness_StepRecordsAtMostOneError :
    ∃ (s t : State) (e : Event) (rest : List Event), s.inbox = e :: rest ∧ e ≠ .hrst ∧ step s = .next t :=
  ⟨facing (.rxb 0x45#8) (partway [] 1), _, _, [], rfl, by decide, rfl⟩

theorem witness_AdmittedReadAnswersRegister :
    (facing (.rd 0x048#10 4) busy).inbox = .rd (offOfWord 18#8) 4 :: [] ∧
      (facing (.rd 0x3FC#10 4) busy).inbox = .rd (offOfWord 255#8) 4 :: [] := by decide

theorem witness_WriteWithoutOperationChangesNothing :
    ((facing (.wr 0x004#10 4 1#32) busy).inbox = .wr (offOfWord 1#8) 4 1#32 :: [] ∧ ¬ writableOffset (offOfWord 1#8)) ∧
      ¬ writableOffset (offOfWord 192#8) ∧
      (facing (.wr 0x01C#10 4 4#32) busy).inbox = .wr (offOfWord 7#8) 4 4#32 :: [] ∧ offOfWord 7#8 = 0x01C#10 ∧
      ((4#32).getLsbD 0 = false ∧ (4#32).getLsbD 1 = false) ∧
      (facing (.wr 0x040#10 4 2#32) busy).inbox = .wr (offOfWord 16#8) 4 2#32 :: [] ∧ offOfWord 16#8 = 0x040#10 ∧
      (2#32).getLsbD 0 = false := by
  refine ⟨⟨rfl, ?_⟩, ?_, rfl, rfl, ⟨rfl, rfl⟩, rfl, rfl, rfl⟩ <;> unfold writableOffset <;> decide

theorem witness_ReceiveEventsLeaveOtherUnits :
    (∃ s t e rest, s.inbox = e :: rest ∧ (∃ b : Byte, e = Event.rxb b) ∧ step s = .next t) ∧
      ∃ s t e rest, s.inbox = e :: rest ∧ (∃ k : LineErr, e = Event.rxe k) ∧ step s = .next t :=
  ⟨⟨facing (.rxb 1#8) busy, _, _, [], rfl, ⟨1#8, rfl⟩, rfl⟩, facing (.rxe .overrun) busy, _, _, [], rfl, ⟨.overrun, rfl⟩, rfl⟩

theorem witness_OnlyHostChangesCrc :
    ∃ (s t : State) (e : Event) (rest : List Event), s.inbox = e :: rest ∧ step s = .next t ∧ t.crc ≠ s.crc :=
  ⟨facing (.wr 0x044#10 4 0x31#32) busy, _, _, [], rfl, rfl, by decide⟩

set_option maxRecDepth 4000 in
theorem witness_InterruptFollowsEnableAndReady :
    (∃ s t e rest, s.inbox = e :: rest ∧ step s = .next t ∧ s.irq = false ∧ t.irq = true) ∧
      ∃ s t e rest, s.inbox = e :: rest ∧ step s = .next t ∧ s.irq = true ∧ t.irq = false :=
  ⟨⟨facing (.wr 0x000#10 4 2#32) (holding w1Payload), _, _, [], rfl, rfl, rfl, by decide⟩,
    facing (.wr 0x010#10 4 0#32) busy, _, _, [], rfl, rfl, rfl, by decide⟩

theorem witness_FramerCommitsToLength :
    (∃ (s t : State) (e : Event) (rest : List Event), s.Inv ∧ s.rxState = .waitPayload ∧ s.inbox = e :: rest ∧ step s = .next t ∧
      t.rxState = .waitPayload) ∧
      ∃ (s t : State) (e : Event) (rest : List Event), s.Inv ∧ s.rxState = .waitPayload ∧ s.inbox = e :: rest ∧ step s = .next t ∧
        t.rxState = .waitSync :=
  ⟨⟨facing (.rxb 0xAA#8) (partway [] 2), _, _, [], by decide, rfl, rfl, rfl, by decide⟩,
    facing (.rxb 0xAA#8) (partway [1#8] 2), _, _, [], by decide, rfl, rfl, rfl, by decide⟩

theorem witness_FrameInFlightIsStable :
    ∃ (s t : State) (e : Event) (rest : List Event), s.txBusy = true ∧ s.inbox = e :: rest ∧ e ≠ .hrst ∧ step s = .next t :=
  ⟨facing (.wr 0x054#10 4 1#32) busy, _, _, [], rfl, rfl, by decide, rfl⟩

theorem witness_RxbHuntsForSync : State.reset.rxState = .waitSync := rfl

theorem witness_RxbTakesLength : { State.reset with rxState := .waitLen }.rxState = .waitLen := rfl

theorem witness_RxbStoresPayloadByte :
    (partway [] 2).rxState = .waitPayload ∧ (partway [] 2).rxCnt.toNat + 1 < (partway [] 2).rxLen.toNat ∧
      (partway [] 255).rxCnt.toNat + 1 < (partway [] 255).rxLen.toNat := by decide

theorem witness_RxbLastByteInstallsPacket :
    (∃ s : State, s.rxState = .waitPayload ∧ s.rxCnt.toNat + 1 = s.rxLen.toNat ∧ s.rdy = false ∧
      (demux s.tables (firstBytes s.asmBuf s.rxCnt.toNat ++ [0x51#8])).hit = true) ∧
      ∃ s : State, s.rxState = .waitPayload ∧ s.rxCnt.toNat + 1 = s.rxLen.toNat ∧ s.rdy = false ∧
        (demux s.tables (firstBytes s.asmBuf s.rxCnt.toNat ++ [0x51#8])).hit = false :=
  ⟨⟨partway [0x45#8] 2, rfl, rfl, rfl, by decide⟩, partway [] 1, rfl, rfl, rfl, by decide⟩

theorem witness_RxbLastByteDropsWhileReady :
    busy.rxState = .waitPayload ∧ busy.rxCnt.toNat + 1 = busy.rxLen.toNat ∧ busy.rdy = true := by decide

theorem witness_WatchdogFiresAfterThreshold :
    ∃ s : State, s.wdtEn = true ∧ s.rxState ≠ .waitSync ∧ s.idle = 0#32 ∧ s.wdtTimeout ≠ 0xFFFFFFFF#32 ∧
      s.inbox = List.replicate (s.wdtTimeout.toNat + 1) Event.tick ++ [] :=
  ⟨{ State.reset with rxState := .waitLen, wdtEn := true, wdtTimeout := 2#32, inbox := [.tick, .tick, .tick] }, rfl, by decide, rfl,
    by decide, rfl⟩

theorem witness_FrameBytesInstallTheirPayload :
    ∃ (s : State) (p : List Byte), p ≠ [] ∧ p.length ≤ 255 ∧ s.rxState = .waitSync ∧ s.rdy = false ∧
      s.inbox = (frameOf p).map Event.rxb ++ [] :=
  ⟨{ State.reset with inbox := (frameOf [0xAA#8]).map Event.rxb }, [0xAA#8], by decide, by decide, rfl, rfl, rfl⟩

theorem witness_FrameBytesWhileReadyAreDropped :
    ∃ (s : State) (p : List Byte), p ≠ [] ∧ p.length ≤ 255 ∧ s.rxState = .waitSync ∧ s.rdy = true ∧
      s.inbox = (frameOf p).map Event.rxb ++ [] :=
  ⟨{ holding w1Payload with inbox := (frameOf [0x45#8]).map Event.rxb }, [0x45#8], by decide, by decide, rfl, rfl, rfl⟩

theorem witness_TagRowInstallsAndReportsHandler :
    State.reset.tables.wf ∧ { State.reset with tables := extended }.tables.wf ∧
      (Instr.ovrd w1Params).tagRow = some (0x4452564F#32, 3, w1Params) ∧ w1Params.length ≤ 251 ∧ State.reset.rdy = false ∧
      (Instr.pres []).tagRow = some (0x53455250#32, 28, []) := by decide

theorem witness_EqRowInstallsAsAliasOfFive :
    State.reset.tables.wf ∧ (Instr.eq []).wf State.reset.tables = true ∧ (Instr.eq [1#8, 2#8]).wf State.reset.tables = true ∧
      State.reset.rdy = false := by decide

theorem witness_TagRowIsDroppedWhileReady :
    (Instr.byps [1#8]).payload = some [0x42#8, 0x59#8, 0x50#8, 0x53#8, 1#8] ∧ (Instr.byps [1#8]).wf busy.tables = true ∧
      (Instr.eq []).payload = some [0x45#8, 0x51#8] ∧ (Instr.eq []).wf busy.tables = true ∧ busy.rdy = true := by decide

theorem witness_DemuxTakesFirstFourByteMatch :
    tag32 w1Payload = some 0x4452564F#32 ∧ Config.tables.tagTable[3]? = some 0x4452564F#32 ∧
      ∀ j, j < 3 → Config.tables.tagTable[j]? ≠ some 0x4452564F#32 := by decide

theorem witness_DemuxTriesAliasAfterMiss :
    tag32 [0x45#8, 0x51#8] = none ∧ max 2 Config.tables.aliasParamOffset ≤ [0x45#8, 0x51#8].length ∧
      tag16 [0x45#8, 0x51#8] = some 0x5145#16 ∧ Config.tables.aliasTable.lookup 0x5145#16 = some 5 := by decide

/-- A miss by every table, a payload too short for any tag, and one too short for the instance's alias offset. -/
theorem witness_DemuxReportsMissAsHandler31 :
    (tag32 [0x58#8, 0x58#8, 0x58#8, 0x58#8] = some 0x58585858#32 ∧ 0x58585858#32 ∉ Config.tables.tagTable ∧
      tag16 [0x58#8, 0x58#8, 0x58#8, 0x58#8] = some 0x5858#16 ∧ Config.tables.aliasTable.lookup 0x5858#16 = none) ∧
      (tag32 [0x45#8] = none ∧ ¬ max 2 Config.tables.aliasParamOffset ≤ [0x45#8].length) ∧
      tag32 [0x45#8, 0x51#8, 1#8] = none ∧ ¬ max 2 extended.aliasParamOffset ≤ [0x45#8, 0x51#8, 1#8].length := by decide

theorem witness_DemuxRegisterFields : State.reset.rdy = false ∧ busy.rdy = true ∧ busy.tables.wf := by decide

theorem witness_CmdWriteResetsAndClears :
    ((1#32).getLsbD 0 = true ∧ (1#32).getLsbD 1 = false) ∧ ((3#32).getLsbD 0 = true ∧ (3#32).getLsbD 1 = true) ∧
      ((2#32).getLsbD 0 = false ∧ (2#32).getLsbD 1 = true) := by decide

theorem witness_BadAccessSetsLastErrOnly : (2 ≠ 4 ∨ (0x018#10).toNat % 4 ≠ 0) ∧ (4 ≠ 4 ∨ (0x3FF#10).toNat % 4 ≠ 0) := by decide

theorem witness_TxsendDropsOrRejects :
    busy.txBusy = true ∧ State.reset.txBusy = false ∧ 250 < (251#32).toNat % 256 ∧ 250 < (255#32).toNat % 256 := by decide

theorem witness_TxsendBuildsFrame :
    State.reset.txBusy = false ∧ 250 = (0x1FA#32).toNat % 256 ∧ 250 ≤ 250 ∧ 0 = (0#32).toNat % 256 := by decide

theorem witness_TxpopHandsOutNextByte :
    ((sending bypsFrame 5).txBusy = true ∧ (sending bypsFrame 5).txIdx.toNat < (sending bypsFrame 5).txTotal.toNat ∧
      (sending bypsFrame 5).txTotal.toNat ≤ 256) ∧ State.reset.txBusy = false := by decide

theorem witness_FrameLeavesInIndexOrder :
    ∃ (s : State) (k : Nat), s.Inv ∧ s.txIdx.toNat + k < s.txTotal.toNat ∧ s.inbox = List.replicate (k + 1) Event.txpop ++ [] :=
  ⟨{ sending bypsFrame 0 with inbox := List.replicate 6 Event.txpop }, 5, by decide, by decide, rfl⟩

theorem witness_SentFrameIsReceivedIntact :
    ∃ (s t : State) (v : Word) (n : Nat), s.txBusy = false ∧ s.rxState = .waitSync ∧ s.rdy = false ∧ n = v.toNat % 256 ∧ n ≤ 250 ∧
      exec (.txsend v) s = .next t :=
  ⟨State.reset, _, 250#32, 250, rfl, rfl, rfl, rfl, by decide, rfl⟩

theorem witness_InitThenFeedsComputeCrc16 :
    ∃ (s : State) (v : Word) (bytes : List Byte), v.getLsbD 0 = true ∧
      s.inbox = .wr 0x040#10 4 v :: (bytes.map fun b => Event.wr 0x044#10 4 (b.zeroExtend 32)) ++ [] :=
  ⟨{ State.reset with inbox := [.wr 0x040#10 4 1#32, .wr 0x044#10 4 0x31#32] }, 1#32, [0x31#8], rfl, by decide⟩

theorem witness_CrcDetectsOneByteChange : (0x31#8 : Byte) ≠ 0x30#8 := by decide

/-- V-P1's fields (95_test_vectors.md W4). -/
def vp1 : PresetFields :=
  ⟨2#8, 3#8, 80#8, 120#8, [0x4F#8, 0x56#8, 0x45#8, 0x52#8, 0x44#8, 0x52#8, 0x56#8, 0x2D#8, 0x34#8], List.replicate 17 ⟨false, [], []⟩⟩

theorem witness_EncodedPresetPassesCheck : vp1.wf = true := by decide

theorem witness_CycleEventsAreOrdered :
    (∃ c : Cycle, c.hrst = true ∧ c.tick = true) ∧
      ∃ c : Cycle, c.hrst = false ∧ c.host = some (.rd 0x004#10 4) ∧ c.rx = some (.byte 1#8) ∧ c.txpop = true ∧ c.tick = true :=
  ⟨⟨{ hrst := true, tick := true }, rfl, rfl⟩,
    { host := some (.rd 0x004#10 4), rx := some (.byte 1#8), txpop := true, tick := true }, rfl, rfl, rfl, rfl, rfl⟩

theorem witness_ConsumeInSameCycleFreesSlot :
    busy.inbox = [] ∧ busy.rdy = true ∧ busy.rxState = .waitPayload ∧ busy.rxCnt.toNat + 1 = busy.rxLen.toNat := by decide

set_option maxRecDepth 100000 in
/-- V-P1 passes the check, and byte 2 of it is not 3 (V-P6 changes it to 3). -/
theorem witness_ChangedPresetByteFailsCheck :
    (presetCheck (encodePreset vp1)).verdict = .ok ∧ (encodePreset vp1).getD 2 0#8 ≠ 3#8 := by decide

set_option maxRecDepth 100000 in
/-- 95_test_vectors.md W4: V-P1 is 297 bytes long and ends in its checksum, BE 0E. -/
theorem test_preset_vp1 :
    (encodePreset vp1).length = 297 ∧ (encodePreset vp1).take 8 = [0x50#8, 0x4D#8, 2#8, 2#8, 3#8, 0x50#8, 0x78#8, 0x11#8] ∧
      (encodePreset vp1).drop 295 = [0xBE#8, 0x0E#8] := by decide

/-- Blocks of 297 bytes that reach each branch: a wrong first byte, a wrong count, and the right count. -/
theorem witness_PresetChecksRunInOrder :
    ([] : List Byte).length ≠ 297 ∧
      (∃ p : List Byte, p.length = 297 ∧ (p.getD 0 0#8 ≠ 0x50#8 ∨ p.getD 1 0#8 ≠ 0x4D#8)) ∧
      (∃ p : List Byte, p.length = 297 ∧ p.getD 0 0#8 = 0x50#8 ∧ p.getD 1 0#8 = 0x4D#8 ∧ p.getD 7 0#8 ≠ 17#8) ∧
      ∃ p : List Byte, p.length = 297 ∧ p.getD 0 0#8 = 0x50#8 ∧ p.getD 1 0#8 = 0x4D#8 ∧ p.getD 7 0#8 = 17#8 :=
  ⟨by decide, ⟨List.replicate 297 0#8, List.length_replicate, .inl (by decide)⟩,
    ⟨0x50#8 :: 0x4D#8 :: List.replicate 295 0#8, by simp only [List.length_cons, List.length_replicate], rfl, rfl, by decide⟩,
    0x50#8 :: 0x4D#8 :: 2#8 :: 0#8 :: 0#8 :: 0#8 :: 0#8 :: 17#8 :: List.replicate 289 0#8,
    by simp only [List.length_cons, List.length_replicate], rfl, rfl, rfl⟩

end Sys2Proof.Tests
end

/-! PROOFS. The statements of 00_scope.md: what a step records, what a step runs, and which bus accesses reach the block. -/

namespace Sys2Proof.Machine

/-! ### The record of a step: last_err and the counters -/

/-- What an event other than HRST may do to last_err and the counters, with `s` before and `t` after (60_exceptions.md section 1). -/
inductive ErrorRecord (s : State) (e : Event) (t : State) : Prop
  | nothing (hlast : t.lastErr = s.lastErr) (hcnt : t.cnt = s.cnt)
  | packet (hlast : t.lastErr = s.lastErr) (hcnt : t.cnt = { s.cnt with pkt := inc16 s.cnt.pkt })
  | error (err : ErrEvent) (hlast : t.lastErr = err.code) (hcnt : t.cnt = s.cnt.count err)
  | packetMissed (hlast : t.lastErr = 7#4)
      (hcnt : t.cnt = { s.cnt with pkt := inc16 s.cnt.pkt, tagMiss := inc16 s.cnt.tagMiss })
  | cleared (v : Word) (hwrite : e.writesTo 0x01C#10 v) (hbit : v.getLsbD 1 = true) (hlast : t.lastErr = 0#4) (hcnt : t.cnt = {})

/-- Only `raise`, `install` and `clearCounters` touch the record, and no event uses two of them but the installation of a packet
whose tag is missed (40_rx_framer.md R106). -/
theorem State.after_errorRecord (s : State) (e : Event) (he : e ≠ .hrst) : ErrorRecord s e (s.after e) := by
  revert he
  apply State.after_elim s e (fun e t => e ≠ .hrst → ErrorRecord s e t)
  case badLen => exact fun _ _ _ _ => .error .badLen rfl rfl
  case drop => exact fun _ _ _ _ _ => .error .rxDrop rfl rfl
  case lineErr => exact fun k _ => .error (.lineError k) rfl rfl
  case fire => exact fun _ _ _ _ => .error .wdtTimeout rfl rfl
  case txDrop => exact fun _ _ _ => .error .txDrop rfl rfl
  case txReject => exact fun _ _ _ _ => .error .txReject rfl rfl
  case badRead | badWrite => intros; exact .error .busError rfl rfl
  case install => exact fun _ _ _ _ _ _ => .packet rfl rfl
  case tagMiss => exact fun _ _ _ _ _ _ => .packetMissed rfl rfl
  case softrstCntclr | cntclr => exact fun v _ hbit _ => .cleared v rfl hbit rfl rfl
  case hrst => exact fun h => absurd rfl h
  case sync | noSync | len | store | tick | pop | read | ctrlwr | consume | wdtset | softrst | crcinit | crcfeed | txtag | txAccept |
      txstage | noOp => intros; exact .nothing rfl rfl

/-- Settles O13, from the record of each event's effect. -/
theorem stepRecordsAtMostOneError : Obligations.StepRecordsAtMostOneError := by
  intro s t e rest hin he hstep
  obtain ⟨-, rfl⟩ := (step_next_iff hin).1 hstep
  cases (s.take rest).after_errorRecord e he with
  | nothing hlast hcnt => exact .inl ⟨hlast, .inl hcnt⟩
  | packet hlast hcnt => exact .inl ⟨hlast, .inr hcnt⟩
  | error err hlast hcnt => exact .inr (.inl ⟨err, hlast, hcnt⟩)
  | packetMissed hlast hcnt => exact .inr (.inr (.inl ⟨hlast, hcnt⟩))
  | cleared v hwrite hbit hlast hcnt => exact .inr (.inr (.inr ⟨hlast, hcnt, v, hwrite, hbit⟩))

/-! ### The event a step runs -/

/-- An event that selects a row runs the row's meaning. -/
theorem stepEvent_of_decode {s : State} {e : Event} {i : Instr} (h : decodeEvent s.rxState e = some i) :
    stepEvent e s = exec i s := by
  simp only [stepEvent, h]

/-- An event that selects no row is only acknowledged. -/
theorem stepEvent_of_noRow {s : State} {e : Event} (h : decodeEvent s.rxState e = none) :
    stepEvent e s = .next (s.respond .writeOk) := by
  simp only [stepEvent, h]

/-- Settles O6, by the head of the inbox and then by what it decodes to. -/
theorem stepRunsDecodedEvent : Obligations.StepRunsDecodedEvent := by
  refine ⟨fun s hin => step_nil hin, fun s e rest hin => ⟨fun i hdec => ?_, fun hdec => ?_⟩⟩
  · rw [step_cons hin]
    exact stepEvent_of_decode (s := s.take rest) hdec
  · rw [step_cons hin]
    exact stepEvent_of_noRow (s := s.take rest) hdec

/-! ### The window of the bus -/

/-- A read inside the window is presented at its offset (20_memory.md R51, R52). -/
theorem busAccess_read {addr : Nat} (h : Config.base ≤ addr ∧ addr < Config.base + 0x400) (size : Nat) (v : Word) :
    busAccess addr size .read v = some (.rd (BitVec.ofNat 10 (addr - Config.base)) size) :=
  if_pos h

/-- A write inside the window is presented at its offset with its value (20_memory.md R51, R52). -/
theorem busAccess_write {addr : Nat} (h : Config.base ≤ addr ∧ addr < Config.base + 0x400) (size : Nat) (v : Word) :
    busAccess addr size .write v = some (.wr (BitVec.ofNat 10 (addr - Config.base)) size v) :=
  if_pos h

/-- An access elsewhere presents nothing (log 17). -/
theorem busAccess_of_notInWindow {addr : Nat} (h : ¬ (Config.base ≤ addr ∧ addr < Config.base + 0x400)) (size : Nat)
    (kind : AccessKind) (v : Word) : busAccess addr size kind v = none :=
  if_neg h

/-- An access is presented exactly when its address lies in the window. -/
theorem busAccess_isSome_iff (addr size : Nat) (kind : AccessKind) (v : Word) :
    (busAccess addr size kind v).isSome = true ↔ Config.base ≤ addr ∧ addr < Config.base + 0x400 := by
  by_cases h : Config.base ≤ addr ∧ addr < Config.base + 0x400
  · cases kind
    · simp only [busAccess_read h, Option.isSome_some, h, and_self]
    · simp only [busAccess_write h, Option.isSome_some, h, and_self]
  · simp only [busAccess_of_notInWindow h, Option.isSome_none, Bool.false_eq_true, h]

/-- The offset of an address in the window is the offset it was formed from. -/
theorem ofNat_base_add_sub_base (off : BitVec 10) : BitVec.ofNat 10 (Config.base + off.toNat - Config.base) = off := by
  rw [Nat.add_sub_cancel_left, BitVec.ofNat_toNat, BitVec.setWidth_eq]

/-- Settles O45, by whether the address lies in the window. -/
theorem windowAddressesBecomeOffsets : Obligations.WindowAddressesBecomeOffsets := by
  refine ⟨Nat.mul_mod_right 0x400 Config.baseIndex, busAccess_isSome_iff, fun off size v => ?_⟩
  have hin : Config.base ≤ Config.base + off.toNat ∧ Config.base + off.toNat < Config.base + 0x400 :=
    ⟨Nat.le_add_right _ _, Nat.add_lt_add_left off.isLt _⟩
  simp only [busAccess_read hin, busAccess_write hin, ofNat_base_add_sub_base, and_self]

end Sys2Proof.Machine

/-! PROOFS. The statements of 10_state.md: the invariant of the state elements, what the unspecified bytes can reach, the register
map, and what each host write and transmitted byte changes. -/

namespace Sys2Proof.Machine

/-! ### The invariant of the state elements -/

/-- No event writes the tables (10_state.md R39). -/
theorem State.after_tables (s : State) (e : Event) : (s.after e).tables = s.tables := by
  apply State.after_elim s e (fun _ t => t.tables = s.tables)
  case txstage => exact fun _ _ _ => State.respond_tables _ _
  all_goals
    intros
    rfl

/-! Each part of the invariant speaks of a few fields only, so what keeps those keeps the part. -/

theorem State.RxOk.of_eq {s t : State} (h : s.RxOk) (hst : t.rxState = s.rxState) (hlen : t.rxLen = s.rxLen)
    (hcnt : t.rxCnt = s.rxCnt) : t.RxOk := by
  unfold State.RxOk
  rw [hst, hlen, hcnt]
  exact h

theorem State.ReadyOk.of_eq {s t : State} (h : s.ReadyOk) (hrdy : t.rdy = s.rdy) (hlen : t.rdyLen = s.rdyLen) : t.ReadyOk := by
  unfold State.ReadyOk
  rw [hrdy, hlen]
  exact h

theorem State.TxOk.of_eq {s t : State} (h : s.TxOk) (hbusy : t.txBusy = s.txBusy) (hframe : t.txFrame = s.txFrame)
    (htotal : t.txTotal = s.txTotal) (hidx : t.txIdx = s.txIdx) : t.TxOk := by
  unfold State.TxOk
  rw [hbusy, hframe, htotal, hidx]
  exact h

/-- In WAIT_PAYLOAD a byte that is not the last leaves the count below the length (10_state.md R24). -/
theorem cnt_succ_lt_of_ne {c l : BitVec 8} (h : c.toNat < l.toNat) (hne : c + 1#8 ≠ l) : (c + 1#8).toNat < l.toNat := by
  have hl := l.isLt
  have hlast := mt (lastByte_iff h).2 hne
  rw [BitVec.toNat_add_of_lt (by simp; omega)]
  simp
  omega

/-- The receive counts: only the two length steps and the returns to WAIT_SYNC write them (10_state.md R23, R24). -/
theorem State.after_rxOk {s : State} (h : s.RxOk) (e : Event) : (s.after e).RxOk := by
  apply State.after_elim s e (fun _ t => t.RxOk)
  case sync => exact fun b hst _ => ⟨fun _ => h.1 (by simp [hst]), nofun⟩
  case len =>
    intro b _ hb
    exact ⟨fun hne => absurd rfl hne, fun _ => Nat.pos_of_ne_zero fun hzero => hb (BitVec.eq_of_toNat_eq hzero)⟩
  case store =>
    intro b hst hne
    exact ⟨fun hn => absurd hst hn, fun _ => cnt_succ_lt_of_ne (h.2 hst) hne⟩
  case badLen | drop | install | tagMiss | lineErr | fire | softrst | softrstCntclr | hrst =>
    intros
    exact ⟨fun _ => ⟨rfl, rfl⟩, nofun⟩
  case noSync | tick | pop | read | badRead | badWrite | ctrlwr | consume | wdtset | cntclr | crcinit | crcfeed | txtag | txDrop |
      txReject | txAccept | noOp =>
    intros
    exact h.of_eq rfl rfl rfl
  case txstage => exact fun _ _ _ => h.of_eq (State.respond_rxState _ _) (State.respond_rxLen _ _) (State.respond_rxCnt _ _)

/-- The assembled payload has rx_len bytes (10_state.md R25). -/
theorem State.assembled_length (s : State) : s.assembled.length = s.rxLen.toNat := by
  have hl := s.rxLen.isLt
  simp [State.assembled]
  omega

/-- An installed packet has a length of 1 to 255 (10_state.md R27). -/
theorem State.install_readyOk (s : State) {p : List Byte} (h1 : 1 ≤ p.length) (h2 : p.length ≤ 255) : (s.install p).ReadyOk := by
  intro _
  rw [State.install_rdyLen, BitVec.toNat_ofNat]
  omega

/-- The ready length: only an installation writes it, and a payload has at least one byte (10_state.md R27). -/
theorem State.after_readyOk {s : State} (hrx : s.RxOk) (h : s.ReadyOk) (e : Event) : (s.after e).ReadyOk := by
  have hinstalled : ∀ b, s.rxState = .waitPayload → ((s.storePayloadByte b).install (s.storePayloadByte b).assembled).ReadyOk := by
    intro b hst
    have hlt := hrx.2 hst
    have hlen := (s.storePayloadByte b).assembled_length
    rw [State.storePayloadByte_rxLen] at hlen
    exact State.install_readyOk _ (by omega) (by omega)
  apply State.after_elim s e (fun _ t => t.ReadyOk)
  case install | tagMiss => exact fun b hst _ _ _ => hinstalled b hst
  case consume => exact fun _ => nofun
  case hrst => exact nofun
  case sync | noSync | badLen | len | store | drop | lineErr | fire | tick | pop | read | badRead | badWrite | ctrlwr | wdtset |
      softrstCntclr | softrst | cntclr | crcinit | crcfeed | txtag | txDrop | txReject | txAccept | noOp =>
    intros
    exact h.of_eq rfl rfl
  case txstage => exact fun _ _ _ => h.of_eq (State.respond_rdy _ _) (State.respond_rdyLen _ _)

/-- An accepted frame is 6 to 256 bytes, SYNC first and LEN second (10_state.md R37, 41_tx_framer.md R142). -/
theorem State.txOk_of_accepted {s t : State} {n : Nat} (hn : n ≤ 250) (hframe : t.txFrame = overlay (s.frameImage n) s.txFrame)
    (htotal : t.txTotal = BitVec.ofNat 9 (6 + n)) (hidx : t.txIdx = 0#9) (hbusy : t.txBusy = true) : t.TxOk := by
  have hlen := s.frameImage_length n hn
  have htotal' : t.txTotal.toNat = 6 + n := by rw [htotal, BitVec.toNat_ofNat]; omega
  have hidx' : t.txIdx.toNat = 0 := by rw [hidx]; rfl
  refine ⟨by omega, by omega, ⟨fun _ => by omega, fun _ => hbusy⟩, fun _ => ⟨by omega, ?_, ?_⟩⟩
  · rw [hframe, byteAt_overlay _ _ _ (by omega), if_pos (by omega)]
    rfl
  · rw [hframe, byteAt_overlay _ _ _ (by omega), if_pos (by omega), htotal', show 6 + n - 2 = 4 + n by omega]
    rfl

/-- Taking a byte of the frame in flight moves tx_idx on by one (41_tx_framer.md R145). -/
theorem State.popByte_txIdx_toNat {s : State} (h : s.txIdx.toNat < s.txTotal.toNat) : s.popByte.txIdx.toNat = s.txIdx.toNat + 1 := by
  have ht := s.txTotal.isLt
  rw [State.popByte_txIdx, BitVec.toNat_add_of_lt (by simp; omega)]
  rfl

/-- tx_busy falls when tx_idx reaches tx_total (41_tx_framer.md R145). -/
theorem State.popByte_txOk {s : State} (h : s.TxOk) (hbusy : s.txBusy = true) : s.popByte.TxOk := by
  obtain ⟨-, hle, hiff, hframe⟩ := h
  have hlt := hiff.1 hbusy
  have hidx := State.popByte_txIdx_toNat hlt
  refine ⟨by rw [hidx]; exact hlt, hle, ?_, hframe⟩
  rw [hidx, State.popByte_txBusy, ← State.popByte_txIdx, State.popByte_txTotal, bne_iff_ne, ne_eq, ← BitVec.toNat_inj, hidx]
  omega

/-- The in-flight slot: only an accepted send, a byte taken and hardware reset write it (10_state.md R37). -/
theorem State.after_txOk {s : State} (h : s.TxOk) (e : Event) (hpop : e = .txpop → s.txBusy = true) : (s.after e).TxOk := by
  revert hpop
  apply State.after_elim s e (fun e t => (e = .txpop → s.txBusy = true) → t.TxOk)
  case pop => exact fun hbusy => State.popByte_txOk h (hbusy rfl)
  case txAccept => exact fun v _ hn _ => State.txOk_of_accepted (s := s) hn rfl rfl rfl rfl
  case hrst => exact fun _ => ⟨by simp, by simp, by simp, by simp⟩
  case sync | noSync | badLen | len | store | drop | install | tagMiss | lineErr | fire | tick | read | badRead | badWrite | ctrlwr |
      consume | wdtset | softrstCntclr | softrst | cntclr | crcinit | crcfeed | txtag | txDrop | txReject | noOp =>
    intros
    exact h.of_eq rfl rfl rfl rfl
  case txstage =>
    exact fun _ _ _ _ =>
      h.of_eq (State.respond_txBusy _ _) (State.respond_txFrame _ _) (State.respond_txTotal _ _) (State.respond_txIdx _ _)

/-- last_err: it keeps its value, takes the code of an error event, or is cleared (60_exceptions.md R220). -/
theorem State.after_errOk {s : State} (h : s.ErrOk) (e : Event) : (s.after e).ErrOk := by
  by_cases he : e = .hrst
  · subst he
    exact Nat.zero_le 10
  · unfold State.ErrOk
    cases s.after_errorRecord e he with
    | nothing hlast | packet hlast => rw [hlast]; exact h
    | error err hlast => rw [hlast]; exact err.code_range.2
    | packetMissed hlast => rw [hlast]; decide
    | cleared v _ _ hlast => rw [hlast]; decide

theorem State.Inv.txOk {s : State} (h : s.Inv) : s.TxOk := by
  obtain ⟨-, -, htx, -, -⟩ := h
  exact htx

/-- Every event that is not refused keeps the invariant. -/
theorem State.after_inv {s : State} (h : s.Inv) (e : Event) (hpop : e = .txpop → s.txBusy = true) : (s.after e).Inv := by
  obtain ⟨hrx, hready, htx, herr, htables⟩ := h
  refine ⟨State.after_rxOk hrx e, State.after_readyOk hrx hready e, State.after_txOk htx e hpop, State.after_errOk herr e, ?_⟩
  rw [State.after_tables]
  exact htables

/-- Settles O9, part of the invariant by part. -/
theorem everyStepKeepsInv : Obligations.EveryStepKeepsInv := by
  intro s t hstep
  cases hin : s.inbox with
  | nil =>
    rw [step_nil hin] at hstep
    cases hstep
    exact ⟨id, rfl⟩
  | cons e rest =>
    obtain ⟨hrun, rfl⟩ := (step_next_iff hin).1 hstep
    have hpop : e = .txpop → s.txBusy = true := fun he => by simpa [he] using hrun
    exact ⟨fun h => State.after_inv (s := s.take rest) h e hpop, (s.take rest).after_tables e⟩

/-! ### The unspecified bytes -/

/-- `s` with other contents in the three buffers that hold unspecified bytes, and with another reset count (log 10, log 11). -/
def State.withBuffers (s : State) (asm rdy : Vector Byte 255) (frame : Vector Byte 256) (ctr : Nat) : State :=
  { s with asmBuf := asm, rdyBuf := rdy, txFrame := frame, freeCtr := ctr }

/-- `f` reads neither the three buffers nor the reset count. -/
def IgnoresBuffers {α : Sort*} (f : State → α) : Prop :=
  ∀ (u : State) asm rdy frame ctr, f (u.withBuffers asm rdy frame ctr) = f u

/-- `g` neither reads nor writes the three buffers and the reset count. -/
def KeepsBuffers (g : State → State) : Prop :=
  ∀ (u : State) asm rdy frame ctr, g (u.withBuffers asm rdy frame ctr) = (g u).withBuffers asm rdy frame ctr

/-- Every byte that `u` specifies, by its counts and flags, is one that `s` specifies. -/
def State.SpecifiesNoMore (u s : State) : Prop :=
  u.rxCnt.toNat ≤ s.rxCnt.toNat ∧ (u.rdy = true → s.rdy = true ∧ u.rdyLen = s.rdyLen) ∧
    (u.txBusy = true → s.txBusy = true ∧ s.txIdx.toNat ≤ u.txIdx.toNat ∧ u.txTotal = s.txTotal)

theorem State.SpecifiesNoMore.of_eq {u s : State} (hcnt : u.rxCnt = s.rxCnt) (hrdy : u.rdy = s.rdy) (hlen : u.rdyLen = s.rdyLen)
    (hbusy : u.txBusy = s.txBusy) (hidx : u.txIdx = s.txIdx) (htotal : u.txTotal = s.txTotal) : u.SpecifiesNoMore s :=
  ⟨by rw [hcnt], fun h => ⟨hrdy ▸ h, hlen⟩, fun h => ⟨hbusy ▸ h, by rw [hidx], htotal⟩⟩

theorem SameBytes.mono {n : Nat} {a b : Vector Byte n} {lo hi lo' hi' : Nat} (h : SameBytes a b lo hi) (hlo : lo ≤ lo')
    (hhi : hi' ≤ hi) : SameBytes a b lo' hi' :=
  fun i hi1 hi2 => h i (hlo.trans hi1) (hi2.trans_le hhi)

/-- Buffers overlaid with the same bytes agree on those. -/
theorem sameBytes_overlay {n : Nat} (p : List Byte) (a b : Vector Byte n) : SameBytes (overlay p a) (overlay p b) 0 p.length := by
  intro i _ hi
  by_cases hn : i < n
  · rw [byteAt_overlay _ _ _ hn, byteAt_overlay _ _ _ hn, if_pos hi, if_pos hi]
  · rw [byteAt_of_ge _ _ (by omega), byteAt_of_ge _ _ (by omega)]

/-- Storing the same byte right after the first `k` lengthens an agreement by it. -/
theorem SameBytes.set_succ {n k : Nat} {a b : Vector Byte n} (h : SameBytes a b 0 k) (x : Byte) :
    SameBytes (a.setIfInBounds k x) (b.setIfInBounds k x) 0 (k + 1) := by
  intro i _ hi
  by_cases hn : i < n
  · rw [byteAt_setIfInBounds _ _ _ _ hn, byteAt_setIfInBounds _ _ _ _ hn]
    split
    · rfl
    · exact h i (Nat.zero_le i) (by omega)
  · rw [byteAt_of_ge _ _ (by omega), byteAt_of_ge _ _ (by omega)]

section
variable {s t : State}

/-- Related states are one state with two contents of the buffers. -/
theorem SameToAgents.eq_withBuffers (h : SameToAgents s t) : t = s.withBuffers t.asmBuf t.rdyBuf t.txFrame t.freeCtr := by
  have he := congrArg (fun u : State => u.withBuffers t.asmBuf t.rdyBuf t.txFrame t.freeCtr) h.rest
  exact he

/-- What ignores the buffers has one value on related states. -/
theorem SameToAgents.read_eq {α : Sort*} {f : State → α} (h : SameToAgents s t) (hf : IgnoresBuffers f) : f t = f s := by
  rw [h.eq_withBuffers]
  exact hf s _ _ _ _

theorem SameToAgents.rdy_eq (h : SameToAgents s t) : t.rdy = s.rdy := h.read_eq (f := (·.rdy)) fun _ _ _ _ _ => rfl

theorem SameToAgents.rdyLen_eq (h : SameToAgents s t) : t.rdyLen = s.rdyLen := h.read_eq (f := (·.rdyLen)) fun _ _ _ _ _ => rfl

theorem SameToAgents.txBusy_eq (h : SameToAgents s t) : t.txBusy = s.txBusy := h.read_eq (f := (·.txBusy)) fun _ _ _ _ _ => rfl

theorem SameToAgents.tables_eq (h : SameToAgents s t) : t.tables = s.tables := h.read_eq (f := (·.tables)) fun _ _ _ _ _ => rfl

/-- An operation that leaves the buffers alone and makes no further byte specified keeps the relation. -/
theorem SameToAgents.map (h : SameToAgents s t) (g : State → State) (hg : KeepsBuffers g) (hno : (g s).SpecifiesNoMore s) :
    SameToAgents (g s) (g t) := by
  obtain ⟨hcnt, hready, htx⟩ := hno
  have hs : g s = (g s).withBuffers s.asmBuf s.rdyBuf s.txFrame s.freeCtr := hg s s.asmBuf s.rdyBuf s.txFrame s.freeCtr
  have ht : g t = (g s).withBuffers t.asmBuf t.rdyBuf t.txFrame t.freeCtr := by
    rw [← hg, ← h.eq_withBuffers]
  rw [ht, hs]
  refine ⟨rfl, h.asm.mono le_rfl hcnt, fun hr => ?_, fun hb => ?_⟩
  · obtain ⟨hr', hlen⟩ := hready hr
    exact (h.ready hr').mono le_rfl (by rw [← hlen]; rfl)
  · obtain ⟨hb', hidx, htotal⟩ := htx hb
    exact (h.frame hb').mono hidx (by rw [← htotal]; rfl)

/-- Two related outcomes of a test that related states decide alike. -/
theorem SameToAgents.ite {c c' : Prop} [Decidable c] [Decidable c'] {s' t' : State} (hc : c' = c) (hpos : c → SameToAgents s t)
    (hneg : ¬ c → SameToAgents s' t') : SameToAgents (if c then s else s') (if c' then t else t') := by
  subst hc
  split
  · exact hpos ‹_›
  · exact hneg ‹_›

/-! ### Each operation keeps the relation -/

theorem SameToAgents.take (h : SameToAgents s t) (rest : List Event) : SameToAgents (s.take rest) (t.take rest) :=
  h.map (·.take rest) (fun _ _ _ _ _ => rfl) (.of_eq rfl rfl rfl rfl rfl rfl)

theorem SameToAgents.respond (h : SameToAgents s t) (o : Output) : SameToAgents (s.respond o) (t.respond o) :=
  h.map (·.respond o) (fun _ _ _ _ _ => rfl) (.of_eq rfl rfl rfl rfl rfl rfl)

theorem SameToAgents.raise (h : SameToAgents s t) (e : ErrEvent) : SameToAgents (s.raise e) (t.raise e) :=
  h.map (·.raise e) (fun _ _ _ _ _ => rfl) (.of_eq rfl rfl rfl rfl rfl rfl)

theorem SameToAgents.clearIdle (h : SameToAgents s t) : SameToAgents s.clearIdle t.clearIdle :=
  h.map (·.clearIdle) (fun _ _ _ _ _ => rfl) (.of_eq rfl rfl rfl rfl rfl rfl)

theorem SameToAgents.clearCounters (h : SameToAgents s t) : SameToAgents s.clearCounters t.clearCounters :=
  h.map (·.clearCounters) (fun _ _ _ _ _ => rfl) (.of_eq rfl rfl rfl rfl rfl rfl)

theorem SameToAgents.gotoSync (h : SameToAgents s t) : SameToAgents s.gotoSync t.gotoSync :=
  h.map (·.gotoSync) (fun _ _ _ _ _ => rfl) ⟨Nat.zero_le _, fun hr => ⟨hr, rfl⟩, fun hb => ⟨hb, le_rfl, rfl⟩⟩

theorem SameToAgents.softReset (h : SameToAgents s t) : SameToAgents s.softReset t.softReset := h.gotoSync.clearIdle

theorem SameToAgents.hardReset (h : SameToAgents s t) : SameToAgents s.hardReset t.hardReset := by
  rw [h.eq_withBuffers]
  exact ⟨rfl, fun _ _ hi => absurd hi (Nat.not_lt_zero _), nofun, nofun⟩

/-- The stored byte, now a specified one, is the same on both sides (40_rx_framer.md R104). -/
theorem SameToAgents.storePayloadByte (h : SameToAgents s t) (b : Byte) :
    SameToAgents (s.storePayloadByte b) (t.storePayloadByte b) := by
  rw [h.eq_withBuffers]
  refine ⟨rfl, (h.asm.set_succ b).mono le_rfl ?_, h.ready, h.frame⟩
  exact Nat.mod_le (s.rxCnt.toNat + 1) (2 ^ 8)

/-- A payload assembled in full is the same on both sides (10_state.md R25). -/
theorem SameToAgents.assembled_eq (h : SameToAgents s t) (hfull : s.rxCnt = s.rxLen) : t.assembled = s.assembled := by
  have hlen : t.rxLen = s.rxLen := h.read_eq (f := (·.rxLen)) fun _ _ _ _ _ => rfl
  rw [State.assembled, State.assembled, hlen, ← hfull]
  exact firstBytes_congr fun i hi => (h.asm i (Nat.zero_le i) hi).symm

/-- An installed packet is specified in full (40_rx_framer.md R106). -/
theorem SameToAgents.install (h : SameToAgents s t) (p : List Byte) : SameToAgents (s.install p) (t.install p) := by
  rw [h.eq_withBuffers]
  refine ⟨rfl, h.asm, fun _ => (sameBytes_overlay p _ _).mono le_rfl ?_, h.frame⟩
  exact (BitVec.toNat_ofNat p.length 8).trans_le (Nat.mod_le _ _)

theorem SameToAgents.complete (h : SameToAgents s t) {p : List Byte} (hp : p.length ≤ 255) :
    SameToAgents (s.complete p) (t.complete p) := by
  have hrdy := h.rdy_eq
  have htables := h.tables_eq
  cases hr : s.rdy with
  | true =>
    rw [State.complete_of_ready s p hr, State.complete_of_ready t p (hrdy.trans hr)]
    exact (h.raise .rxDrop).gotoSync
  | false =>
    rw [State.complete_of_free s p hp hr, State.complete_of_free t p hp (hrdy.trans hr)]
    exact (SameToAgents.ite (by rw [htables]) (fun _ => h.install p) fun _ => (h.install p).raise .tagMiss).gotoSync

theorem SameToAgents.wdtCheck (h : SameToAgents s t) : SameToAgents s.wdtCheck t.wdtCheck :=
  .ite (h.read_eq (f := fun u => u.wdtEn = true ∧ u.rxState ≠ .waitSync ∧ u.wdtTimeout < u.idle) fun _ _ _ _ _ => rfl)
    (fun _ => (h.raise .wdtTimeout).gotoSync) fun _ => h

theorem SameToAgents.writeCmd (h : SameToAgents s t) (v : Word) : SameToAgents (s.writeCmd v) (t.writeCmd v) := by
  have hreset := SameToAgents.ite (c := v.getLsbD 0 = true) rfl (fun _ => h.softReset) fun _ => h
  exact .ite rfl (fun _ => hreset.clearCounters) fun _ => hreset

/-- An accepted frame is specified in full (41_tx_framer.md R142). -/
theorem SameToAgents.send (h : SameToAgents s t) (v : Word) : SameToAgents (s.send v) (t.send v) := by
  have hbusy := h.txBusy_eq
  cases hb : s.txBusy with
  | true =>
    rw [State.send_of_busy s v hb, State.send_of_busy t v (hbusy.trans hb)]
    exact h.raise .txDrop
  | false =>
    by_cases hn : sendCount v ≤ 250
    · rw [State.send_of_free s v hb hn, State.send_of_free t v (hbusy.trans hb) hn, h.eq_withBuffers]
      refine ⟨rfl, h.asm, h.ready, fun _ => (sameBytes_overlay (s.frameImage (sendCount v)) _ _).mono (Nat.zero_le _) ?_⟩
      rw [State.frameImage_length s _ hn]
      exact (BitVec.toNat_ofNat (6 + sendCount v) 9).trans_le (Nat.mod_le _ _)
    · rw [State.send_of_large s v hb (by omega), State.send_of_large t v (hbusy.trans hb) (by omega)]
      exact h.raise .txReject

/-- The byte handed out is one of the frame in flight (10_state.md R38, 41_tx_framer.md R145). -/
theorem SameToAgents.txByte_eq (h : SameToAgents s t) (htx : s.TxOk) (hb : s.txBusy = true) : t.txByte = s.txByte := by
  obtain ⟨-, hle, hiff, -⟩ := htx
  have hidx : t.txIdx = s.txIdx := h.read_eq (f := (·.txIdx)) fun _ _ _ _ _ => rfl
  have hlt := hiff.1 hb
  rw [State.txByte_eq s (by omega), State.txByte_eq t (by rw [hidx]; omega), hidx]
  exact (h.frame hb _ le_rfl hlt).symm

theorem SameToAgents.popByte (h : SameToAgents s t) (htx : s.TxOk) (hb : s.txBusy = true) : SameToAgents s.popByte t.popByte := by
  obtain ⟨-, -, hiff, -⟩ := htx
  refine h.map (·.popByte) (fun _ _ _ _ _ => rfl) ⟨le_rfl, fun hr => ⟨hr, rfl⟩, fun _ => ⟨hb, ?_, rfl⟩⟩
  rw [State.popByte_txIdx_toNat (hiff.1 hb)]
  exact Nat.le_add_right _ _

/-! ### No agent learns an unspecified byte -/

/-- RX_BUF shows only the bytes of a ready packet (10_state.md R48). -/
theorem SameToAgents.rxByte_eq (h : SameToAgents s t) (i : Nat) : t.rxByte i = s.rxByte i := by
  have hguard : (t.rdy = true ∧ i < t.rdyLen.toNat) = (s.rdy = true ∧ i < s.rdyLen.toNat) :=
    h.read_eq (f := fun u => u.rdy = true ∧ i < u.rdyLen.toNat) fun _ _ _ _ _ => rfl
  simp only [State.rxByte, hguard]
  exact ite_congr rfl (fun hin => (h.ready hin.1 i (Nat.zero_le i) hin.2).symm) fun _ => rfl

/-- DEMUX shows only the result for a ready packet (43_tag_demux.md R185). -/
theorem SameToAgents.demuxReg_eq (h : SameToAgents s t) : t.demuxReg = s.demuxReg := by
  have hrdy := h.rdy_eq
  have hlen := h.rdyLen_eq
  have htables := h.tables_eq
  rw [State.demuxReg, State.demuxReg, hrdy]
  refine ite_congr rfl (fun hr => ?_) fun _ => rfl
  have hpayload : t.readyPayload = s.readyPayload := by
    rw [State.readyPayload, State.readyPayload, hlen]
    exact firstBytes_congr fun i hi => (h.ready hr i (Nat.zero_le i) hi).symm
  rw [State.demuxOut, State.demuxOut, hpayload, htables]

/-- Every register reads alike. -/
theorem SameToAgents.regRead_eq (h : SameToAgents s t) (w : BitVec 8) : t.regRead w = s.regRead w := by
  have hrx : t.rxBufReg = s.rxBufReg := funext fun k => by simp only [State.rxBufReg, h.rxByte_eq]
  have hdemux := h.demuxReg_eq
  simp only [State.regRead, hrx, hdemux]
  rw [h.eq_withBuffers]
  rfl

theorem SameToAgents.afterByte (h : SameToAgents s t) (b : Byte) : SameToAgents (s.afterByte b) (t.afterByte b) := by
  have hst : t.rxState = s.rxState := h.read_eq (f := (·.rxState)) fun _ _ _ _ _ => rfl
  have hlast : (t.rxCnt + 1#8 = t.rxLen) = (s.rxCnt + 1#8 = s.rxLen) :=
    h.read_eq (f := fun u => u.rxCnt + 1#8 = u.rxLen) fun _ _ _ _ _ => rfl
  unfold State.afterByte
  rw [hst]
  cases s.rxState with
  | waitSync =>
    refine .ite rfl (fun _ => ?_) fun _ => h.clearIdle
    exact h.clearIdle.map (fun u => { u with rxState := .waitLen }) (fun _ _ _ _ _ => rfl) (.of_eq rfl rfl rfl rfl rfl rfl)
  | waitLen =>
    refine .ite rfl (fun _ => (h.clearIdle.raise .badLen).gotoSync) fun _ => ?_
    exact h.clearIdle.map (fun u => { u with rxLen := b, rxCnt := 0#8, rxState := .waitPayload }) (fun _ _ _ _ _ => rfl)
      ⟨Nat.zero_le _, fun hr => ⟨hr, rfl⟩, fun hb => ⟨hb, le_rfl, rfl⟩⟩
  | waitPayload =>
    have hstore := h.storePayloadByte b
    refine .ite hlast (fun hfull => ?_) fun _ => hstore
    rw [hstore.assembled_eq hfull]
    exact hstore.complete (by simp [State.assembled])

theorem SameToAgents.afterWrite (h : SameToAgents s t) (off : BitVec 10) (v : Word) :
    SameToAgents (s.afterWrite off v) (t.afterWrite off v) := by
  unfold State.afterWrite
  refine .ite rfl (fun _ => ?ctrlwr) fun _ => .ite rfl (fun _ => ?consume) fun _ => .ite rfl (fun _ => ?wdtset) fun _ =>
    .ite rfl (fun _ => h.writeCmd v) fun _ => .ite rfl (fun _ => .ite rfl (fun _ => ?crcinit) fun _ => h) fun _ =>
    .ite rfl (fun _ => ?crcfeed) fun _ => .ite rfl (fun _ => ?txtag) fun _ => .ite rfl (fun _ => h.send v) fun _ =>
    .ite rfl (fun _ => ?txstage) fun _ => h
  case ctrlwr =>
    exact h.map (fun u => { u with wdtEn := v.getLsbD 0, irqEn := v.getLsbD 1 }) (fun _ _ _ _ _ => rfl)
      (.of_eq rfl rfl rfl rfl rfl rfl)
  case consume =>
    exact h.map (fun u => { u with rdy := false }) (fun _ _ _ _ _ => rfl) ⟨le_rfl, nofun, fun hb => ⟨hb, le_rfl, rfl⟩⟩
  case wdtset => exact h.map (fun u => { u with wdtTimeout := v }) (fun _ _ _ _ _ => rfl) (.of_eq rfl rfl rfl rfl rfl rfl)
  case crcinit => exact h.map (fun u => { u with crc := Config.crcInit }) (fun _ _ _ _ _ => rfl) (.of_eq rfl rfl rfl rfl rfl rfl)
  case crcfeed =>
    exact h.map (fun u => { u with crc := crcStep u.crc (byteLane v 0) }) (fun _ _ _ _ _ => rfl) (.of_eq rfl rfl rfl rfl rfl rfl)
  case txtag => exact h.map (fun u => { u with txTag := v }) (fun _ _ _ _ _ => rfl) (.of_eq rfl rfl rfl rfl rfl rfl)
  case txstage =>
    exact h.map (fun u => { u with txStage := stageWord u.txStage (off.extractLsb' 2 6).toNat v }) (fun _ _ _ _ _ => rfl)
      (.of_eq rfl rfl rfl rfl rfl rfl)

/-- Every event that is not refused keeps the relation, its answer included. -/
theorem SameToAgents.after (h : SameToAgents s t) (htx : s.TxOk) (e : Event) (hpop : e = .txpop → s.txBusy = true) :
    SameToAgents (s.after e) (t.after e) := by
  cases e with
  | rxb b => exact h.afterByte b
  | rxe k => exact (h.clearIdle.raise (.lineError k)).gotoSync
  | tick => exact (h.map (fun u => { u with idle := sat32 u.idle }) (fun _ _ _ _ _ => rfl) (.of_eq rfl rfl rfl rfl rfl rfl)).wdtCheck
  | txpop =>
    have hb := hpop rfl
    rw [State.after, State.after, h.txByte_eq htx hb]
    exact (h.popByte htx hb).respond _
  | rd off size =>
    rw [State.after, State.after, h.regRead_eq]
    exact .ite rfl (fun _ => h.respond _) fun _ => (h.raise .busError).respond _
  | wr off size v => exact .ite rfl (fun _ => (h.afterWrite off v).respond .writeOk) fun _ => (h.raise .busError).respond _
  | hrst => exact h.hardReset

end

/-- Settles O12: what a step reads of the buffers are specified bytes, and what it writes there is the same on both sides. -/
theorem unspecifiedBytesAreUnobservable : Obligations.UnspecifiedBytesAreUnobservable := by
  intro s t hinv h
  have hin : t.inbox = s.inbox := h.read_eq (f := (·.inbox)) fun _ _ _ _ _ => rfl
  have hbusy := h.txBusy_eq
  refine ⟨h.regRead_eq, ?_⟩
  cases hs : s.inbox with
  | nil =>
    rw [step_nil hs, step_nil (hin.trans hs)]
    refine ⟨fun s' he => ?_, fun r he => by cases he⟩
    cases he
    exact ⟨t, rfl, h⟩
  | cons e rest =>
    rw [step_cons hs, step_cons (hin.trans hs), stepEvent_eq, stepEvent_eq, State.take_txBusy, State.take_txBusy, hbusy]
    by_cases hrefused : e = .txpop ∧ s.txBusy = false
    · simp only [if_pos hrefused]
      exact ⟨fun s' he => (by cases he), fun _ => id⟩
    · simp only [if_neg hrefused]
      refine ⟨fun s' he => ?_, fun r he => by cases he⟩
      cases he
      exact ⟨_, rfl, (h.take rest).after hinv.txOk e fun he => by simpa [he] using hrefused⟩

/-! ### What a read and a write without effect leave -/

/-- The event taken is in no register. -/
theorem State.regRead_take (s : State) (rest : List Event) (w : BitVec 8) : (s.take rest).regRead w = s.regRead w := rfl

/-- An admitted read answers its register and changes nothing else (20_memory.md R52, R55). -/
theorem State.after_read (s : State) (w : BitVec 8) : s.after (.rd (offOfWord w) 4) = s.respond (.readData (s.regRead w)) := by
  rw [State.after, if_pos ⟨rfl, offOfWord_aligned w⟩, extract_offOfWord]

/-- Settles O14, from what an admitted read leaves. -/
theorem admittedReadAnswersRegister : Obligations.AdmittedReadAnswersRegister := by
  intro s w rest hin
  rw [step_next_iff hin, State.after_read, State.regRead_take]
  exact ⟨fun h => (nomatch h.1), rfl⟩

/-- A write at an offset that has no write operation changes nothing (20_memory.md R54). -/
theorem State.afterWrite_of_not_writable (s : State) {off : BitVec 10} (h : ¬ writableOffset off) (v : Word) :
    s.afterWrite off v = s := by
  simp only [writableOffset, List.mem_cons, List.not_mem_nil, or_false, not_or] at h
  obtain ⟨⟨h1, h2, h3, h4, h5, h6, h7, h8⟩, hwindow⟩ := h
  rw [State.afterWrite, if_neg h1, if_neg h2, if_neg h3, if_neg h4, if_neg h5, if_neg h6, if_neg h7, if_neg h8, if_neg hwindow]

/-- A write to CMD with neither bit set performs no operation (10_state.md R47). -/
theorem State.writeCmd_of_neither (s : State) {v : Word} (hbit0 : v.getLsbD 0 = false) (hbit1 : v.getLsbD 1 = false) :
    s.writeCmd v = s := by
  simp only [State.writeCmd, hbit0, hbit1, Bool.false_eq_true, if_false]

/-- Settles O15: each of the three kinds of write leaves every register as it was. -/
theorem writeWithoutOperationChangesNothing : Obligations.WriteWithoutOperationChangesNothing := by
  intro s w v rest hin hkind
  have hnothing : (s.take rest).afterWrite (offOfWord w) v = s.take rest := by
    rcases hkind with hoff | ⟨hoff, hbit0, hbit1⟩ | ⟨hoff, hbit0⟩
    · exact State.afterWrite_of_not_writable _ hoff v
    · rw [hoff]
      exact State.writeCmd_of_neither _ hbit0 hbit1
    · rw [hoff]
      exact if_neg (ne_true_of_eq_false hbit0)
  rw [step_next_iff hin, State.after, if_pos ⟨rfl, offOfWord_aligned w⟩, hnothing]
  exact ⟨fun h => (nomatch h.1), rfl⟩

/-! ### Who writes the CRC register -/

/-- Every event but HRST and the writes to CRC_CTRL and CRC_DATA keeps crc (42_crc16.md R162, R163). -/
theorem State.after_crc (s : State) (e : Event) :
    (s.after e).crc = s.crc ∨ e = .hrst ∨ (∃ v, e.writesTo 0x040#10 v) ∨ ∃ v, e.writesTo 0x044#10 v := by
  apply State.after_elim s e fun e t =>
    t.crc = s.crc ∨ e = .hrst ∨ (∃ v, e.writesTo 0x040#10 v) ∨ ∃ v, e.writesTo 0x044#10 v
  case hrst => exact .inr (.inl rfl)
  case crcinit => exact fun v => .inr (.inr (.inl ⟨v, rfl⟩))
  case crcfeed => exact fun v => .inr (.inr (.inr ⟨v, rfl⟩))
  case txstage => exact fun _ _ _ => .inl (State.respond_crc _ _)
  all_goals
    intros
    exact .inl rfl

/-- Settles O17, from the events that keep crc. -/
theorem onlyHostChangesCrc : Obligations.OnlyHostChangesCrc := by
  intro s t e rest hin hstep hcrc
  obtain ⟨-, rfl⟩ := (step_next_iff hin).1 hstep
  exact ((s.take rest).after_crc e).resolve_left hcrc

/-! ### Fields of a register -/

section
variable {n p : Nat}

/-- A field is read back at the bits where it stands. -/
theorem extract_field_self (f : BitVec p) {k : Nat} (h : k + p ≤ n) : (f.zeroExtend n <<< k).extractLsb' k p = f :=
  extract_eq_of_bits fun i hi => by simp [hi, show k + i < n by omega]

/-- A field leaves the bits beside it 0. -/
theorem extract_field_beside (f : BitVec p) {k lo m : Nat} (h : lo + m ≤ k ∨ k + p ≤ lo) :
    (f.zeroExtend n <<< k).extractLsb' lo m = 0#m :=
  extract_eq_of_bits fun i hi => by
    rw [BitVec.getLsbD_shiftLeft, BitVec.getLsbD_setWidth, BitVec.getLsbD_zero]
    rcases h with h | h
    · simp [show lo + i < k by omega]
    · rw [BitVec.getLsbD_of_ge f _ (by omega)]
      simp

end

/-- STATUS, with its lowest field written as a shifted one too. -/
theorem State.statusReg_eq (s : State) :
    s.statusReg =
      (rxStateCode s.rxState).zeroExtend 32 <<< 0
        ||| (BitVec.ofBool s.rdy).zeroExtend 32 <<< 2
        ||| (BitVec.ofBool s.txBusy).zeroExtend 32 <<< 3
        ||| (BitVec.ofBool s.irq).zeroExtend 32 <<< 4
        ||| s.rxCnt.zeroExtend 32 <<< 8
        ||| s.rxLen.zeroExtend 32 <<< 16 := by
  rw [State.statusReg, BitVec.shiftLeft_zero]

/-- Settles O38: each field of STATUS is read back where it stands, and the other fields leave its bits 0. -/
theorem statusRegisterFields : Obligations.StatusRegisterFields := by
  intro s
  refine ⟨s.statusReg, rfl, ?state, ?others⟩
  case state =>
    have hcode : s.statusReg.extractLsb' 0 2 = rxStateCode s.rxState := by
      simp (disch := omega) only [State.statusReg_eq, BitVec.extractLsb'_or, extract_field_self, extract_field_beside, BitVec.or_zero]
    rw [hcode]
    cases s.rxState <;> rfl
  case others =>
    simp (disch := omega) only [State.statusReg_eq, State.irq, BitVec.extractLsb'_or, extract_field_self, extract_field_beside,
      BitVec.or_zero, BitVec.zero_or, and_self]

/-- CTRL shows the two enables and nothing else (10_state.md R41). -/
theorem State.ctrlReg_bits (s : State) :
    s.ctrlReg.getLsbD 0 = s.wdtEn ∧ s.ctrlReg.getLsbD 1 = s.irqEn ∧ s.ctrlReg.extractLsb' 2 30 = 0#30 := by
  rw [State.ctrlReg]
  cases s.wdtEn <;> cases s.irqEn <;> decide

/-! ### The register map -/

/-- RX_BUF[k] is the ready payload's word, masked to the packet (10_state.md R48). -/
theorem State.rxBufReg_lanes (s : State) (k j : Nat) (hj : j < 4) :
    byteLane (s.rxBufReg k) j = if s.rdy = true ∧ 4 * k + j < s.rdyLen.toNat then byteAt s.rdyBuf (4 * k + j) else 0#8 :=
  s.byteLane_rxBufReg k j hj

/-- TX_STAGE[k] is the staged word, 0 from byte 250 on (10_state.md R49). -/
theorem State.txStageReg_lanes (s : State) (k j : Nat) (hj : j < 4) :
    byteLane (s.txStageReg k) j = if 4 * k + j < 250 then byteAt s.txStage (4 * k + j) else 0#8 := by
  rw [s.byteLane_txStageReg k j hj, State.stageByte]
  split
  · rfl
  · exact byteAt_of_ge _ _ (by omega)

/-- From word 22 on only the two buffer windows read anything (10_state.md R40, 20_memory.md R54). -/
theorem State.regRead_beyond_windows (s : State) (w : BitVec 8) (h : (22 ≤ w.toNat ∧ w.toNat < 64) ∨ 192 ≤ w.toNat) :
    s.regRead w = 0#32 := by
  obtain ⟨m, hm⟩ : ∃ m, w.toNat = m + 22 := ⟨w.toNat - 22, by omega⟩
  have hwindows : s.regRead w = if 64 ≤ m + 22 ∧ m + 22 < 128 then s.rxBufReg (m + 22 - 64)
      else if 128 ≤ m + 22 ∧ m + 22 < 192 then s.txStageReg (m + 22 - 128) else 0#32 := by
    rw [State.regRead, hm]
    rfl
  rw [hwindows, if_neg (by omega), if_neg (by omega)]

/-- Settles O39, lane by lane. -/
theorem rxreadAnswersPayloadLanes : Obligations.RxreadAnswersPayloadLanes :=
  fun s k => ⟨s.rxBufReg k.toNat, rfl, s.rxBufReg_lanes k.toNat⟩

/-- Settles O40, word by word of the map. -/
theorem rdregAnswersRegisterMap : Obligations.RdregAnswersRegisterMap := by
  intro s w
  have hext : ∀ {n : Nat} (x : BitVec n), n ≤ 32 → (x.zeroExtend 32).toNat = x.toNat := fun _ h => BitVec.toNat_setWidth_of_le h
  refine ⟨s.regRead w, rfl, ?ctrl, ?lastErr, ?rdyLen, ?wdtTimeout, ?lineErr, ?lenErr, ?rxDrop, ?wdt, ?pkt, ?tagMiss, ?txDrop, ?txRej,
    ?crc, ?idle, ?txTag, ?status, ?demux, ?rxBuf, ?txStage, ?zero⟩
  case ctrl =>
    rintro rfl
    exact s.ctrlReg_bits
  case rdyLen =>
    rintro rfl
    show s.rdyLenReg.toNat = _
    rw [State.rdyLenReg, apply_ite BitVec.toNat]
    exact ite_congr rfl (fun _ => hext s.rdyLen (by decide)) fun _ => rfl
  case wdtTimeout | idle | txTag | status | demux =>
    rintro rfl
    rfl
  case lastErr | lineErr | lenErr | rxDrop | wdt | pkt | tagMiss | txDrop | txRej =>
    rintro rfl
    exact hext _ (by decide)
  case crc =>
    rintro rfl
    exact hext s.crc (by decide)
  case rxBuf =>
    intro k hk hw j hj
    rw [s.regRead_rxBuf w (by omega), hw, Nat.add_sub_cancel_left]
    exact s.rxBufReg_lanes k j hj
  case txStage =>
    intro k hk hw j hj
    rw [s.regRead_txStage w (by omega), hw, Nat.add_sub_cancel_left]
    exact s.txStageReg_lanes k j hj
  case zero =>
    rintro (hw | hw)
    · simp only [List.mem_cons, List.not_mem_nil, or_false] at hw
      rcases hw with rfl | rfl | rfl | rfl | rfl <;> rfl
    · exact s.regRead_beyond_windows w hw

/-! ### What the writes change -/

/-- The word index of TX_STAGE[k] (10_state.md R49). -/
theorem txStageWord_toNat (k : BitVec 6) : (0x80#8 ||| k.zeroExtend 8).toNat = 128 + k.toNat := by
  revert k
  decide

/-- TX_STAGE[k] reads back the lanes written to it that exist. -/
theorem State.txStageReg_stageWord (s : State) (k j : Nat) (v : Word) (hj : j < 4) :
    byteLane ({ s with txStage := stageWord s.txStage k v }.txStageReg k) j = if 4 * k + j < 250 then byteLane v j else 0#8 := by
  rw [State.txStageReg_lanes _ _ _ hj]
  refine ite_congr rfl (fun hlt => ?_) fun _ => rfl
  rw [byteAt_stageWord _ _ _ _ hlt, if_pos (by omega), show (4 * k + j) % 4 = j by omega]

/-- The low half of a word, lane by lane. -/
theorem byteLane_and_lowHalf (v : Word) (j : Nat) (hj : j < 4) :
    byteLane (v &&& 0x0000FFFF#32) j = if j < 2 then byteLane v j else 0#8 := by
  rw [byteLane, byteLane, BitVec.extractLsb'_and]
  interval_cases j
  · exact BitVec.and_allOnes
  · exact BitVec.and_allOnes
  · exact BitVec.and_zero
  · exact BitVec.and_zero

/-- Settles O41, byte by byte, then lane by lane. -/
theorem txstageStoresAndReadsBack : Obligations.TxstageStoresAndReadsBack := by
  intro s k v
  refine ⟨_, rfl, rfl, fun i hi => byteAt_stageWord _ _ _ _ hi, ?_⟩
  have hk := k.isLt
  have hw := txStageWord_toNat k
  rw [State.regRead_txStage _ _ (by omega), hw, Nat.add_sub_cancel_left]
  apply word_eq_of_lanes
  intro j hj
  refine (s.txStageReg_stageWord k.toNat j v hj).trans ?_
  rcases Nat.lt_trichotomy k.toNat 62 with hlt | heq | hgt
  · rw [if_pos (by omega), if_pos hlt]
  · rw [if_neg (show ¬ k.toNat < 62 by omega), if_pos heq, byteLane_and_lowHalf v j hj]
    exact if_congr (by omega) rfl rfl
  · rw [if_neg (by omega), if_neg (by omega), if_neg (by omega)]
    exact BitVec.extractLsb'_zero.symm

/-- Settles O42: each of these instructions is one record update, and CTRL's value is read off for the four pairs of enables. -/
theorem controlWritesSetTheirFields : Obligations.ControlWritesSetTheirFields := by
  refine ⟨rfl, rfl, fun s v => ⟨rfl, ?_, rfl, rfl, rfl⟩⟩
  have hctrl : s.regRead 0#8 = (if s.wdtEn = true then 1#32 else 0#32) ||| (if s.irqEn = true then 2#32 else 0#32) := by
    show s.ctrlReg = _
    rw [State.ctrlReg]
    cases s.wdtEn <;> cases s.irqEn <;> rfl
  rw [← hctrl]
  rfl

/-- A write to CMD runs its bits' operations and is acknowledged, by whichever of its two rows (10_state.md R47). -/
theorem exec_cmd (s : State) (v : Word) :
    exec (.softrst v) s = .next ((s.writeCmd v).respond .writeOk) ∧ exec (.cntclr v) s = .next ((s.writeCmd v).respond .writeOk) :=
  ⟨rfl, rfl⟩

/-- Settles O43, from what the two bits of a CMD write do. -/
theorem cmdWriteResetsAndClears : Obligations.CmdWriteResetsAndClears := by
  intro s v
  obtain ⟨hsoftrst, hcntclr⟩ := exec_cmd s v
  rw [hsoftrst, hcntclr, State.writeCmd_cases]
  refine ⟨fun hbit0 hbit1 => ?_, fun hbit0 hbit1 => ?_, fun hbit0 hbit1 => ?_⟩
  · rw [if_pos hbit0, if_neg (ne_true_of_eq_false hbit1)]
    rfl
  · rw [if_pos hbit0, if_pos hbit1]
    rfl
  · rw [if_neg (ne_true_of_eq_false hbit0), if_pos hbit1]
    rfl

/-! ### A frame in flight -/

/-- A frame is in flight exactly while bytes of it are left (10_state.md R37). -/
theorem State.TxOk.busy_eq {s : State} (h : s.TxOk) : s.txBusy = decide (s.txIdx.toNat < s.txTotal.toNat) := by
  obtain ⟨-, -, hiff, -⟩ := h
  rw [Bool.eq_iff_iff, decide_eq_true_iff]
  exact hiff

/-- One TXPOP of a run, with a frame in flight: the byte at tx_idx is handed out and tx_idx moves on (41_tx_framer.md R145). -/
theorem run_txpop {s : State} {rest : List Event} (hinv : s.Inv) (hlt : s.txIdx.toNat < s.txTotal.toNat)
    (hin : s.inbox = .txpop :: rest) :
    ∃ u : State, (∀ k, Sys2Proof.core.run (k + 1) s = Sys2Proof.core.run k u) ∧ u.Inv ∧ u.inbox = rest ∧
      u.txIdx.toNat = s.txIdx.toNat + 1 ∧ u.txTotal = s.txTotal ∧ u.txFrame = s.txFrame ∧
      u.out = .txByte (byteAt s.txFrame s.txIdx.toNat) := by
  obtain ⟨-, hle, -, -⟩ := hinv.txOk
  have hbusy := hinv.txOk.busy_eq.trans (decide_eq_true hlt)
  refine ⟨(s.take rest).after .txpop, fun k => run_event k hin (.inr hbusy),
    State.after_inv (s := s.take rest) hinv .txpop fun _ => hbusy, rfl, State.popByte_txIdx_toNat (s := s.take rest) hlt, rfl, rfl, ?_⟩
  exact congrArg Output.txByte ((s.take rest).txByte_eq (show s.txIdx.toNat < 256 by omega))

/-- Settles O49, by induction on the number of bytes taken before the last one. -/
theorem frameLeavesInIndexOrder : Obligations.FrameLeavesInIndexOrder := by
  intro s k rest hinv hlt hin
  induction k generalizing s with
  | zero =>
    obtain ⟨u, hrun, hinv', hinbox, hidx, htotal, -, hout⟩ := run_txpop hinv hlt hin
    refine ⟨u, hrun 0, hinbox, hout, ?_⟩
    rw [hinv'.txOk.busy_eq, hidx, htotal, Nat.add_zero]
  | succ k ih =>
    obtain ⟨u, hrun, hinv', hinbox, hidx, htotal, hframe, -⟩ := run_txpop hinv (by omega) hin
    have hsum : u.txIdx.toNat + k = s.txIdx.toNat + (k + 1) := by omega
    obtain ⟨t, hrest, hinbox', hout, hbusy⟩ := ih u hinv' (by rw [hsum, htotal]; exact hlt) hinbox
    refine ⟨t, (hrun (k + 1)).trans hrest, hinbox', ?_, ?_⟩
    · rw [hout, hframe, hsum]
    · rw [hbusy, hsum, htotal]

end Sys2Proof.Machine

/-! PROOFS. The statement of 20_memory.md: what a host access that is not admitted decodes to and changes. -/

namespace Sys2Proof.Machine

/-- What decides that an access is a bus error (20_memory.md R52, R53). -/
theorem admitted_eq_false_iff (off : BitVec 10) (size : Nat) : admitted off size = false ↔ size ≠ 4 ∨ off.toNat % 4 ≠ 0 := by
  rw [← Bool.not_eq_true, admitted_iff, not_and_or]

/-- An access that is not admitted decodes to BUSERR in every receive state (30_encoding.md R90). -/
theorem decodeEvent_of_not_admitted {off : BitVec 10} {size : Nat} (h : admitted off size = false) (st : RxState) (v : Word) :
    decodeEvent st (.rd off size) = some (.buserr .read off size) ∧
      decodeEvent st (.wr off size v) = some (.buserr .write off size) :=
  have hna : ¬ admitted off size = true := ne_true_of_eq_false h
  ⟨if_neg hna, if_neg hna⟩

/-- BUSERR is one record update, whatever the access (20_memory.md R53). -/
theorem exec_buserr (kind : AccessKind) (off : BitVec 10) (size : Nat) (s : State) :
    exec (.buserr kind off size) s = .next { s with lastErr := 10#4, out := busErrorResponse kind } := rfl

/-- Settles O44, from what BUSERR leaves and what an access that is not admitted decodes to. -/
theorem badAccessSetsLastErrOnly : Obligations.BadAccessSetsLastErrOnly := fun s off size hbad =>
  ⟨exec_buserr .read off size s, exec_buserr .write off size s,
    decodeEvent_of_not_admitted ((admitted_eq_false_iff off size).2 hbad)⟩

end Sys2Proof.Machine

/-! PROOFS. The statements of 30_encoding.md: decoding and encoding, the tag rows, the frame on the wire, and the encoded preset. -/

namespace Sys2Proof.Laws.DecodesBack

/-- Every instruction's own round trip. -/
theorem of_instr : ∀ i : Instr, Statement i
  | .gate params => gate params
  | .comp params => comp params
  | .awah params => awah params
  | .ovrd params => ovrd params
  | .dist params => dist params
  | .equl params => equl params
  | .harm params => harm params
  | .vibr params => vibr params
  | .chor params => chor params
  | .octv params => octv params
  | .flng params => flng params
  | .phas params => phas params
  | .trem params => trem params
  | .fir params => fir params
  | .dely params => dely params
  | .nam params => nam params
  | .rvrb params => rvrb params
  | .gnrc params => gnrc params
  | .gen params => gen params
  | .util params => util params
  | .loop params => loop params
  | .drum params => drum params
  | .metr params => metr params
  | .byps params => byps params
  | .midi params => midi params
  | .reql params => reql params
  | .flsh params => flsh params
  | .rstd params => rstd params
  | .pres params => pres params
  | .eq params => eq params
  | .rxbWaitSync b => rxbWaitSync b
  | .rxbWaitLen b => rxbWaitLen b
  | .rxbWaitPayload b => rxbWaitPayload b
  | .rxe k => rxe k
  | .tick => tick
  | .txpop => txpop
  | .buserr kind off size => buserr kind off size
  | .hrst => hrst
  | .ctrlwr v => ctrlwr v
  | .consume v => consume v
  | .wdtset v => wdtset v
  | .softrst v => softrst v
  | .cntclr v => cntclr v
  | .crcinit v => crcinit v
  | .crcfeed v => crcfeed v
  | .txtag v => txtag v
  | .txsend v => txsend v
  | .txstage k v => txstage k v
  | .rdreg w => rdreg w
  | .crcread => crcread
  | .demuxread => demuxread
  | .rxread k => rxread k

end Sys2Proof.Laws.DecodesBack

namespace Sys2Proof.Machine

/-! ### Decoding and encoding -/

/-- Settles O1, instruction by instruction. -/
theorem decodeOfEncodeIsIdentity : Obligations.DecodeOfEncodeIsIdentity :=
  fun t st i ht hwf hsel => Laws.DecodesBack.of_instr i t st ht hwf hsel

/-- Settles O4, by decoding the ten words. -/
theorem specWordsDecodeAsListed : Obligations.SpecWordsDecodeAsListed := by
  unfold Obligations.SpecWordsDecodeAsListed
  decide

/-- The parameters after EQ's bytes make no 4-byte tag of the table with them (43_tag_demux.md R183). -/
theorem aliasParamsFree_of_notMem {t : Config.Tables} {params : List Byte}
    (h : ∀ w, tag32 (0x45#8 :: 0x51#8 :: params) = some w → w ∉ t.tagTable) : aliasParamsFree t params = true := by
  match params, h with
  | [], _ | [_], _ => rfl
  | c :: d :: _, h => simpa [aliasParamsFree] using h _ rfl

/-- What is decoded from a payload is well formed, and no tag row asks for a receive state. -/
theorem wf_of_decodePayload {t : Config.Tables} {p : List Byte} {i : Instr} (h : decodePayload t p = .ok i) (st : RxState) :
    i.wf t = true ∧ i.selectedIn st = true := by
  obtain ⟨-, hlen, ⟨w, r, -, hr, rfl⟩ | ⟨hmiss, hreach, heq, rfl⟩⟩ := decodePayload_ok h
  · obtain ⟨hwf, hsel⟩ := wf_tagRow r (tagRowOf_some hr).1 (p.drop 4) t st
    refine ⟨hwf.trans (decide_eq_true ?_), hsel⟩
    rw [List.length_drop, maxTagParams]
    omega
  · obtain ⟨params, rfl⟩ := cons_of_tag16 heq
    simp only [List.length_cons] at hlen hreach
    refine ⟨?_, rfl⟩
    simp only [Instr.wf, List.drop_succ_cons, List.drop_zero, Bool.and_eq_true, decide_eq_true_eq, maxAliasParams]
    exact ⟨⟨by omega, by omega⟩, aliasParamsFree_of_notMem hmiss⟩

/-- A read that no narrower row takes has a word index that RDREG keeps (log 6). -/
theorem rdregKeeps_extract : ∀ off : BitVec 10, off.toNat % 4 = 0 → off ≠ 0x048#10 → off ≠ 0x018#10 →
    ¬ (0x100 ≤ off.toNat ∧ off.toNat < 0x200) → rdregKeeps (off.extractLsb' 2 8) = true := by
  decide

/-- The row of an admitted read is well formed. -/
theorem wf_of_readRow {off : BitVec 10} {v : Word} {i : Instr} (ha : off.toNat % 4 = 0) (h : hostRowOf hostReadRows off v = some i)
    (t : Config.Tables) (st : RxState) : i.wf t = true ∧ i.selectedIn st = true := by
  rw [hostRowOf_read off v ha] at h
  split_ifs at h with hcrc hdemux hwindow <;> cases h
  case neg => exact ⟨rdregKeeps_extract off ha hcrc hdemux hwindow, rfl⟩
  all_goals exact ⟨rfl, rfl⟩

/-- The row of an admitted write is well formed: where it has a `data_match`, the written value meets it (30_encoding.md R94). -/
theorem wf_of_writeRow {off : BitVec 10} {v : Word} {i : Instr} (ha : off.toNat % 4 = 0)
    (h : hostRowOf hostWriteRows off v = some i) (t : Config.Tables) (st : RxState) : i.wf t = true ∧ i.selectedIn st = true := by
  rw [hostRowOf_write off v ha] at h
  split_ifs at h with hctrl hack hwdt hcmd hsoft hclear hinit hbit hfeed htag hsend hstage <;> cases h
  any_goals exact ⟨rfl, rfl⟩
  · exact ⟨hsoft, rfl⟩
  · exact ⟨by rw [Instr.wf, hclear, Bool.eq_false_of_not_eq_true hsoft]; rfl, rfl⟩
  · exact ⟨hbit, rfl⟩

/-- An access that is not admitted decodes to a well-formed BUSERR. -/
theorem buserr_wf_of_not_admitted {off : BitVec 10} {size : Nat} (h : ¬ admitted off size = true) (kind : AccessKind)
    (t : Config.Tables) : (Instr.buserr kind off size).wf t = true := by
  simpa [Instr.wf, admitted, bne, imp_iff_not_or] using h

/-- What is decoded from an event is well formed, and the receive state selects it. -/
theorem wf_of_decodeEvent {st : RxState} {e : Event} {i : Instr} (h : decodeEvent st e = some i) (t : Config.Tables) :
    i.wf t = true ∧ i.selectedIn st = true := by
  cases e with
  | rxb b => cases st <;> cases h <;> exact ⟨rfl, rfl⟩
  | rxe k => cases h; exact ⟨rfl, rfl⟩
  | tick | txpop | hrst => cases h; exact ⟨rfl, rfl⟩
  | rd off size =>
    rw [decodeEvent] at h
    split at h
    case isTrue ha => exact wf_of_readRow ((admitted_iff off size).1 ha).2 h t st
    case isFalse ha => cases h; exact ⟨buserr_wf_of_not_admitted ha .read t, rfl⟩
  | wr off size v =>
    rw [decodeEvent] at h
    split at h
    case isTrue ha => exact wf_of_writeRow ((admitted_iff off size).1 ha).2 h t st
    case isFalse ha => cases h; exact ⟨buserr_wf_of_not_admitted ha .write t, rfl⟩

/-- Settles O2: a payload's row, or the row of an event. -/
theorem decodedInstrIsWellFormed : Obligations.DecodedInstrIsWellFormed := by
  intro t st c i h
  cases c with
  | payload p => exact wf_of_decodePayload h st
  | event e =>
    cases hj : decodeEvent st e with
    | some j =>
      rw [decode, hj] at h
      cases h
      exact wf_of_decodeEvent hj t
    | none =>
      rw [decode, hj] at h
      cases h

/-- The instruction read from a payload encodes to that payload. -/
theorem encode_of_decodePayload {t : Config.Tables} {p : List Byte} {i : Instr} (h : decodePayload t p = .ok i) :
    encode i = .payload p := by
  obtain ⟨-, -, ⟨w, r, hw, hr, rfl⟩ | ⟨-, -, heq, rfl⟩⟩ := decodePayload_ok h
  · obtain ⟨hmem, rfl⟩ := tagRowOf_some hr
    rw [encode_tagRow r hmem, tagPayload_of_tag32 hw]
  · obtain ⟨params, rfl⟩ := cons_of_tag16 heq
    rfl

/-- Settles O3, from what a decoded payload can be. -/
theorem decodedPayloadEncodesBack : Obligations.DecodedPayloadEncodesBack :=
  fun _ _ _ _ h => encode_of_decodePayload h

/-! ### The tag rows beside the demultiplexer -/

/-- A TAG32 row's instruction: its payload, its operand check, and its tag's place in the catalog (30_encoding.md R79). -/
theorem tagRow_spec {i : Instr} {tag : Word} {h : Nat} {params : List Byte} (hi : i.tagRow = some (tag, h, params)) :
    encode i = .payload (tagPayload tag params) ∧ (∀ t, i.wf t = decide (params.length ≤ maxTagParams)) ∧
      Config.catalogTags.findIdx? (· == tag) = some h := by
  cases i <;> cases hi <;> exact ⟨rfl, fun _ => rfl, by decide⟩

/-- Every row of the decoder's tag table is one of the 29. -/
theorem tagRow_isSome : ∀ r ∈ tagRows, ∀ params, (r.build params).tagRow.isSome = true := by
  simp only [tagRows, List.cons_append, List.nil_append, List.forall_mem_cons, List.not_mem_nil, false_imp_iff, implies_true,
    Instr.tagRow, Option.isSome_some, and_self]

/-! The three answers of the demultiplexer (43_tag_demux.md R180). -/

theorem demux_of_tagHandler {t : Config.Tables} {p : List Byte} {h : Nat} (ht : tagHandler t p = some h) :
    demux t p = demuxFound t p.length h false 4 := by
  rw [demux, ht]

theorem demux_of_aliasHandler {t : Config.Tables} {p : List Byte} {h : Nat} (ht : tagHandler t p = none)
    (ha : aliasHandler t p = some h) : demux t p = demuxFound t p.length h true t.aliasParamOffset := by
  rw [demux, ht, ha]

theorem demux_of_noHandler {t : Config.Tables} {p : List Byte} (ht : tagHandler t p = none) (ha : aliasHandler t p = none) :
    demux t p = demuxMiss p.length := by
  rw [demux, ht, ha]

/-- A tag word of the table has a handler. -/
theorem tagHandler_isSome_of_mem {t : Config.Tables} {p : List Byte} {w : Word} (hw : tag32 p = some w) (hm : w ∈ t.tagTable) :
    (tagHandler t p).isSome = true := by
  rw [tagHandler, hw, Option.bind_some, List.findIdx?_isSome, List.any_eq_true]
  exact ⟨w, hm, beq_self_eq_true w⟩

/-- Every 4-byte hit is reported as one. -/
theorem demux_hit_of_mem {t : Config.Tables} {p : List Byte} {w : Word} (hw : tag32 p = some w) (hm : w ∈ t.tagTable) :
    (demux t p).hit = true := by
  obtain ⟨h, hh⟩ := Option.isSome_iff_exists.1 (tagHandler_isSome_of_mem hw hm)
  rw [demux_of_tagHandler hh]
  rfl

/-- A 2-byte tag in ALIAS_TABLE hits after every 4-byte tag missed. -/
theorem demux_of_alias {t : Config.Tables} {p : List Byte} {a : BitVec 16} {h : Nat}
    (hmiss : ∀ w, tag32 p = some w → w ∉ t.tagTable) (hreach : max 2 t.aliasParamOffset ≤ p.length) (ha : tag16 p = some a)
    (hl : t.aliasTable.lookup a = some h) : demux t p = demuxFound t p.length h true t.aliasParamOffset :=
  demux_of_aliasHandler (tagHandler_eq_none hmiss) (by rw [aliasHandler_of_le hreach, ha, Option.bind_some, hl])

/-- A payload whose 2-byte tag ALIAS_TABLE does not hold has no handler there. -/
theorem aliasHandler_eq_none {t : Config.Tables} {p : List Byte}
    (h : max 2 t.aliasParamOffset ≤ p.length → ∀ a, tag16 p = some a → t.aliasTable.lookup a = none) :
    aliasHandler t p = none := by
  rw [aliasHandler]
  split
  case isTrue hreach =>
    rw [Option.bind_eq_none_iff]
    exact h hreach
  case isFalse => rfl

/-- The decoder finds a row or an added entry of the tables exactly when the demultiplexer hits. -/
theorem decodePayload_demux_agree {t : Config.Tables} (ht : t.wf) {p : List Byte} (hne : p ≠ []) (hlen : p.length ≤ 255) :
    ((demux t p).hit = true ∧ ((∃ i, decodePayload t p = .ok i) ∨ decodePayload t p = .error .tableExtension)) ∨
      ((demux t p).hit = false ∧ (decodePayload t p = .error .tagMiss ∨ decodePayload t p = .error .tagShortMiss)) := by
  rcases decodePayload_cases t p hne hlen with ⟨w, r, hw, hr, hd⟩ | ⟨-, ⟨w, hw, hm, hd⟩ | ⟨hmiss, hrest⟩⟩
  · have hm : w ∈ t.tagTable := by
      by_contra hn
      rw [(tagRowOf_eq_none_iff w).2 (notMem_catalog_of_wf ht hn)] at hr
      cases hr
    exact .inl ⟨demux_hit_of_mem hw hm, .inl ⟨_, hd⟩⟩
  · exact .inl ⟨demux_hit_of_mem hw hm, .inr hd⟩
  · rcases hrest with ⟨hreach, heq, hd⟩ | ⟨hreach, -, ⟨a, h, ha, hl⟩, hd⟩ | ⟨hnone, hd⟩
    · obtain ⟨-, -, hl, -, -, -⟩ := ht
      exact .inl ⟨by rw [demux_of_alias hmiss hreach heq hl]; rfl, .inl ⟨_, hd⟩⟩
    · exact .inl ⟨by rw [demux_of_alias hmiss hreach ha hl]; rfl, .inr hd⟩
    · have hnoAlias := aliasHandler_eq_none fun hreach a ha => (hnone hreach a ha).2
      exact .inr ⟨by rw [demux_of_noHandler (tagHandler_eq_none hmiss) hnoAlias]; rfl, hd.symm⟩

/-- A payload of one of the 29 tags hits its place in the catalog. -/
theorem demux_of_tagRow {t : Config.Tables} (ht : t.wf) {i : Instr} {tag : Word} {h : Nat} {params : List Byte}
    (hi : i.tagRow = some (tag, h, params)) :
    demux t (tagPayload tag params) = demuxFound t (4 + params.length) h false 4 := by
  obtain ⟨-, -, hplace⟩ := tagRow_spec hi
  rw [demux_of_tagHandler (tagHandler_of_catalog ht (tag32_tagPayload tag params) hplace), tagPayload_length]

/-- An EQ payload decoded is one that every 4-byte tag missed and that reaches ALIAS_PARAM_OFFSET. -/
theorem demux_of_decoded_eq {t : Config.Tables} (ht : t.wf) {p params : List Byte} (h : decodePayload t p = .ok (.eq params)) :
    demux t p = demuxFound t p.length 5 true t.aliasParamOffset := by
  obtain ⟨-, -, hl, -, -, -⟩ := ht
  obtain ⟨-, -, ⟨w, r, -, hr, he⟩ | ⟨hmiss, hreach, heq, -⟩⟩ := decodePayload_ok h
  · have := tagRow_isSome r (tagRowOf_some hr).1 (p.drop 4)
    rw [← he] at this
    cases this
  · exact demux_of_alias hmiss hreach heq hl

/-- The default tables add nothing to the opcode table's rows. -/
theorem decodePayload_default_ne_tableExtension {p : List Byte} (hne : p ≠ []) (hlen : p.length ≤ 255) :
    decodePayload Config.tables p ≠ .error .tableExtension := by
  rcases decodePayload_cases Config.tables p hne hlen with
    ⟨w, r, -, -, hd⟩ | ⟨hnoRow, ⟨w, hw, hm, -⟩ | ⟨-, ⟨-, -, hd⟩ | ⟨-, hne5, ⟨a, h, ha, hl⟩, -⟩ | ⟨-, hd | hd⟩⟩⟩
  · rw [hd]; nofun
  · exact absurd hm ((tagRowOf_eq_none_iff w).1 (hnoRow w hw))
  · rw [hd]; nofun
  · have hmem := mem_of_lookup hl
    cases List.mem_singleton.1 hmem
    exact absurd ha hne5
  · rw [hd]; nofun
  · rw [hd]; nofun

/-- Settles O5: the two agree on what hits, and what decodes names the tag that hits. -/
theorem tagRowsAgreeWithDemux : Obligations.TagRowsAgreeWithDemux := by
  intro t p ht hne hlen
  refine ⟨?miss, ?hit, fun i tag h params hd hi => ?tagRow, fun params hd => ?eq, ?default⟩
  case miss =>
    rcases decodePayload_demux_agree ht hne hlen with ⟨hhit, ⟨i, hd⟩ | hd⟩ | ⟨hhit, hd⟩
    · simp [hhit, hd]
    · simp [hhit, hd]
    · exact iff_of_true hhit hd
  case hit =>
    rcases decodePayload_demux_agree ht hne hlen with ⟨hhit, hd⟩ | ⟨hhit, hd | hd⟩
    · exact iff_of_true hhit hd
    · simp [hhit, hd]
    · simp [hhit, hd]
  case tagRow =>
    obtain ⟨henc, -, -⟩ := tagRow_spec hi
    cases henc.symm.trans (encode_of_decodePayload hd)
    rw [demux_of_tagRow ht hi]
    exact ⟨rfl, rfl⟩
  case eq =>
    rw [demux_of_decoded_eq ht hd]
    exact ⟨rfl, rfl⟩
  case default =>
    rintro rfl
    exact decodePayload_default_ne_tableExtension hne hlen

/-! ### The byte that completes a payload -/

/-- The hand-over reads nothing that the return to WAIT_SYNC clears (40_rx_framer.md R106). -/
theorem State.complete_gotoSync (s : State) {p : List Byte} (hp : p.length ≤ 255) : s.gotoSync.complete p = s.complete p := by
  cases hr : s.rdy with
  | true =>
    rw [State.complete_of_ready s p hr, State.complete_of_ready s.gotoSync p hr]
    rfl
  | false =>
    rw [State.complete_of_free s p hp hr, State.complete_of_free s.gotoSync p hp hr, State.gotoSync_tables,
      apply_ite State.gotoSync, apply_ite State.gotoSync]
    rfl

/-- The last byte of a payload leaves what the arrival of the whole payload leaves (log 3). -/
theorem State.afterByte_last_eq_receivePayload {s : State} {b : Byte} (hst : s.rxState = .waitPayload)
    (hlast : s.rxCnt.toNat + 1 = s.rxLen.toNat) :
    s.afterByte b = s.receivePayload (firstBytes s.asmBuf s.rxCnt.toNat ++ [b]) := by
  have hl := s.rxLen.isLt
  have hp : (firstBytes s.asmBuf s.rxCnt.toNat ++ [b]).length ≤ 255 := by
    rw [List.length_append, firstBytes_length, List.length_singleton]
    omega
  rw [State.afterByte_last s b hst hlast, State.receivePayload, overlay_firstBytes_snoc _ _ _ (by omega)]
  exact (State.complete_gotoSync (s.storePayloadByte b) hp).symm.trans
    (State.complete_gotoSync { s.clearIdle with asmBuf := s.asmBuf.setIfInBounds s.rxCnt.toNat b } hp)

/-- Settles O7: the payload's row hands over what the last byte completes. -/
theorem completingByteRunsTagRow : Obligations.CompletingByteRunsTagRow := by
  intro s b rest i hin hst hlast hd
  rw [step_cons hin, stepEvent_rxb, exec_of_payload (encode_of_decodePayload hd)]
  exact congrArg _ (State.afterByte_last_eq_receivePayload (s := s.take rest) hst hlast)

/-! ### The meaning of the tag rows -/

/-- A payload that hits and arrives with the slot free becomes the ready packet (40_rx_framer.md R106). -/
theorem State.receivePayload_of_hit {s : State} {p : List Byte} (hp : p.length ≤ 255) (hr : s.rdy = false)
    (hit : (demux s.tables p).hit = true) :
    s.receivePayload p = { s with
      idle := 0#32, asmBuf := overlay p s.asmBuf, rdyBuf := overlay p s.rdyBuf, rdyLen := BitVec.ofNat 8 p.length, rdy := true
      cnt := { s.cnt with pkt := s.cnt.pkt + 1#16 }, rxState := .waitSync, rxLen := 0#8, rxCnt := 0#8 } :=
  (State.complete_of_free { s.clearIdle with asmBuf := overlay p s.asmBuf } p hp hr).trans
    (congrArg State.gotoSync (if_pos hit))

/-- A payload that arrives while a packet is ready is dropped and counted (40_rx_framer.md R106). -/
theorem State.receivePayload_of_ready {s : State} (p : List Byte) (hr : s.rdy = true) :
    s.receivePayload p = { s with
      idle := 0#32, asmBuf := overlay p s.asmBuf, cnt := { s.cnt with rxDrop := s.cnt.rxDrop + 1#16 }, lastErr := 5#4
      rxState := .waitSync, rxLen := 0#8, rxCnt := 0#8 } :=
  State.complete_of_ready { s.clearIdle with asmBuf := overlay p s.asmBuf } p hr

/-- The payload that has just arrived with the slot free is the ready packet's. -/
theorem State.readyPayload_receivePayload {s : State} {p : List Byte} (hp : p.length ≤ 255) (hr : s.rdy = false)
    (hit : (demux s.tables p).hit = true) : (s.receivePayload p).readyPayload = p := by
  rw [State.receivePayload_of_hit hp hr hit]
  exact State.readyPayload_install s p hp

/-- The verdict's code is the two bits of the statements. -/
theorem lenCheck_code (expected : Option Nat) (n : Nat) : (lenCheck expected n).code = lenChkBits expected n := by
  cases expected with
  | none => rfl
  | some e =>
    rw [lenCheck, lenChkBits]
    split_ifs <;> rfl

/-- The zero extension of a number that fits. -/
theorem zeroExtend_ofNat_of_lt {m n x : Nat} (hx : x < 2 ^ m) : (BitVec.ofNat m x).zeroExtend n = BitVec.ofNat n x := by
  apply BitVec.eq_of_toNat_eq
  simp [Nat.mod_eq_of_lt hx]

/-- The packed value of a hit whose fields fit (43_tag_demux.md R185). -/
theorem demuxWord_found (t : Config.Tables) {len h off : Nat} (al : Bool) (hh : h < 32) (hlen : len - off < 256) (hoff : off < 8) :
    demuxWord (demuxFound t len h al off) =
      (if al then 7#32 else 3#32) ||| (if len < 4 then 8#32 else 0#32) ||| BitVec.ofNat 32 h <<< 8
        ||| BitVec.ofNat 32 (len - off) <<< 16 ||| (lenChkBits (t.expected h) (len - off)).zeroExtend 32 <<< 24
        ||| BitVec.ofNat 32 off <<< 28 := by
  have hflags : 1#32 ||| (BitVec.ofBool true).zeroExtend 32 <<< 1 ||| (BitVec.ofBool al).zeroExtend 32 <<< 2
      ||| (BitVec.ofBool (decide (len < 4))).zeroExtend 32 <<< 3
      = (if al then 7#32 else 3#32) ||| (if len < 4 then 8#32 else 0#32) := by
    by_cases hs : len < 4 <;> cases al <;> simp [hs]
  simp only [demuxWord, demuxFound, hflags, lenCheck_code, zeroExtend_ofNat_of_lt (m := 5) hh,
    zeroExtend_ofNat_of_lt (m := 8) hlen, zeroExtend_ofNat_of_lt (m := 3) hoff]

/-- A DEMUX read after a payload has arrived with the slot free shows the payload's result. -/
theorem exec_demuxread_receivePayload {s : State} {p : List Byte} (hp : p.length ≤ 255) (hr : s.rdy = false)
    (hit : (demux s.tables p).hit = true) :
    exec .demuxread (s.receivePayload p) =
      .next { s.receivePayload p with out := .readData (demuxWord (demux s.tables p)) } := by
  have hrdy : (s.receivePayload p).rdy = true := by rw [State.receivePayload_of_hit hp hr hit]
  have htables : (s.receivePayload p).tables = s.tables := by rw [State.receivePayload_of_hit hp hr hit]
  have hreg : (s.receivePayload p).demuxReg = demuxWord (demux s.tables p) := by
    rw [State.demuxReg, if_pos hrdy, State.demuxOut, htables, State.readyPayload_receivePayload hp hr hit]
  rw [← hreg]
  rfl

/-- What an arrival with the slot free leaves of the buffers: the payload first, the older bytes beyond it. -/
theorem State.receivePayload_buffers {s : State} {p : List Byte} (hp : p.length ≤ 255) (hr : s.rdy = false)
    (hit : (demux s.tables p).hit = true) :
    firstBytes (s.receivePayload p).asmBuf p.length = p ∧
      ∀ j, p.length ≤ j → byteAt (s.receivePayload p).rdyBuf j = byteAt s.rdyBuf j ∧
        byteAt (s.receivePayload p).asmBuf j = byteAt s.asmBuf j := by
  rw [State.receivePayload_of_hit hp hr hit]
  exact ⟨firstBytes_overlay p s.asmBuf hp, fun j hj => ⟨byteAt_overlay_of_ge _ _ _ hj, byteAt_overlay_of_ge _ _ _ hj⟩⟩

/-- Settles O31: the row's tag hits its place in the catalog, so its payload is installed. -/
theorem tagRowInstallsAndReportsHandler : Obligations.TagRowInstallsAndReportsHandler := by
  intro s i tag h params ht hi hlen hr
  obtain ⟨henc, -, hplace⟩ := tagRow_spec hi
  have hdemux := demux_of_tagRow ht hi
  have hl := tagPayload_length tag params
  have hp : (tagPayload tag params).length ≤ 255 := by omega
  have hit : (demux s.tables (tagPayload tag params)).hit = true := by rw [hdemux]; rfl
  obtain ⟨hasm, hbeyond⟩ := State.receivePayload_buffers hp hr hit
  rw [hl] at hasm hbeyond
  have hh : h < 32 := ((List.findIdx?_eq_some_iff_getElem.1 hplace).1).trans (by decide)
  have hexpected : s.tables.expected 3 = some 13 := by
    obtain ⟨-, -, -, -, -, hovrd⟩ := ht
    exact hovrd
  refine ⟨hexpected, s.receivePayload (tagPayload tag params), exec_of_payload henc s, ?_,
    State.readyPayload_receivePayload hp hr hit, hasm, hbeyond, ?_⟩
  · rw [State.receivePayload_of_hit hp hr hit, hl]
  · rw [exec_demuxread_receivePayload hp hr hit, hdemux, demuxWord_found _ _ hh (by omega) (by decide),
      if_neg (show ¬ 4 + params.length < 4 by omega), Nat.add_sub_cancel_left]
    rfl

/-- Settles O32: every 4-byte tag misses an EQ payload, and ALIAS_TABLE's EQ, of handler 5, hits. -/
theorem eqRowInstallsAsAliasOfFive : Obligations.EqRowInstallsAsAliasOfFive := by
  intro s params ht hwf hr
  simp only [Instr.wf, Bool.and_eq_true, decide_eq_true_eq] at hwf
  obtain ⟨⟨hlen, hreach⟩, hfree⟩ := hwf
  rw [maxAliasParams] at hlen
  obtain ⟨-, -, hlookup, -, hoff, -⟩ := ht
  have hl : (0x45#8 :: 0x51#8 :: params).length = 2 + params.length := by rw [List.length_cons, List.length_cons]; omega
  have hp : (0x45#8 :: 0x51#8 :: params).length ≤ 255 := by omega
  have hdemux := demux_of_alias (tag32_eq_notMem hfree) (by omega) rfl hlookup
  have hit : (demux s.tables (0x45#8 :: 0x51#8 :: params)).hit = true := by rw [hdemux]; rfl
  obtain ⟨hasm, hbeyond⟩ := State.receivePayload_buffers hp hr hit
  rw [hl] at hasm hbeyond
  refine ⟨s.receivePayload (0x45#8 :: 0x51#8 :: params), exec_of_payload rfl s, ?_, State.readyPayload_receivePayload hp hr hit,
    hasm, hbeyond, ?_⟩
  · rw [State.receivePayload_of_hit hp hr hit, hl]
  · have hshort : (2 + params.length < 4) = (params.length < 2) := propext (by omega)
    rw [exec_demuxread_receivePayload hp hr hit, hdemux, hl, demuxWord_found _ _ (by decide) (by omega) hoff]
    simp only [hshort]
    rfl

/-- The instructions with a payload are the 29 tag rows and EQ. -/
theorem tagRow_or_eq_of_payload {i : Instr} {p : List Byte} (hi : i.payload = some p) :
    (∃ tag h params, i.tagRow = some (tag, h, params)) ∨ ∃ params, i = .eq params := by
  cases i
  case buserr kind _ _ => cases kind <;> cases hi
  case eq params => exact .inr ⟨params, rfl⟩
  case gate | comp | awah | ovrd | dist | equl | harm | vibr | chor | octv | flng | phas | trem | fir | dely | nam | rvrb | gnrc |
      gen | util | loop | drum | metr | byps | midi | reql | flsh | rstd | pres => exact .inl ⟨_, _, _, rfl⟩
  case rxbWaitSync | rxbWaitLen | rxbWaitPayload | rxe | tick | txpop | hrst | ctrlwr | consume | wdtset | softrst | cntclr |
      crcinit | crcfeed | txtag | txsend | txstage | rdreg | crcread | demuxread | rxread => cases hi

/-- The payload of an instruction is its encoding. -/
theorem encode_of_payload {i : Instr} {p : List Byte} (hi : i.payload = some p) : encode i = .payload p := by
  rw [Instr.payload] at hi
  split at hi <;> cases hi
  assumption

/-- A well-formed tag row's payload fits a frame (30_encoding.md R70). -/
theorem payload_length_le_of_wf {i : Instr} {p : List Byte} {t : Config.Tables} (hi : i.payload = some p) (hwf : i.wf t = true) :
    p.length ≤ 255 := by
  rcases tagRow_or_eq_of_payload hi with ⟨tag, h, params, hrow⟩ | ⟨params, rfl⟩
  · obtain ⟨henc, hlen, -⟩ := tagRow_spec hrow
    cases henc.symm.trans (encode_of_payload hi)
    rw [hlen, decide_eq_true_eq, maxTagParams] at hwf
    rw [tagPayload_length]
    omega
  · cases hi
    simp only [Instr.wf, Bool.and_eq_true, decide_eq_true_eq] at hwf
    obtain ⟨⟨hlen, -⟩, -⟩ := hwf
    rw [maxAliasParams] at hlen
    rw [List.length_cons, List.length_cons]
    omega

/-- Settles O33: the arrival of the row's payload while a packet is ready. -/
theorem tagRowIsDroppedWhileReady : Obligations.TagRowIsDroppedWhileReady := by
  intro s i p hi hwf hr
  have hp := payload_length_le_of_wf hi hwf
  refine ⟨s.receivePayload p, exec_of_payload (encode_of_payload hi) s, ?_, ?_, ?_⟩ <;> rw [State.receivePayload_of_ready p hr]
  · exact firstBytes_overlay p s.asmBuf hp
  · exact fun j hj => byteAt_overlay_of_ge _ _ _ hj

/-! ### The frame a send request builds -/

/-- The frame image of `n` parameter bytes is the frame of the tag and the staged bytes (41_tx_framer.md R142). -/
theorem State.frameImage_eq_frameOf (s : State) {n : Nat} (hn : n ≤ 250) :
    s.frameImage n = frameOf (bytesOfWord s.txTag ++ firstBytes s.txStage n) := by
  have hlen : (bytesOfWord s.txTag ++ firstBytes s.txStage n).length = 4 + n := by
    rw [List.length_append, bytesOfWord_length, firstBytes_length, Nat.min_eq_left hn]
  rw [State.frameImage, frameOf, hlen]

/-- An accepted TXSEND, as one record update (41_tx_framer.md R142). -/
theorem exec_txsend_of_free {s : State} {v : Word} (hbusy : s.txBusy = false) (hn : v.toNat % 256 ≤ 250) :
    exec (.txsend v) s = .next { s with
      txFrame := overlay (s.frameImage (v.toNat % 256)) s.txFrame, txTotal := BitVec.ofNat 9 (6 + v.toNat % 256), txIdx := 0#9
      txBusy := true, out := .writeOk } := by
  rw [← sendCount_eq] at hn ⊢
  exact congrArg (fun t : State => Host.Outcome.next (t.respond .writeOk)) (State.send_of_free s v hbusy hn)

/-- The frame buffer after a frame image of `n` parameter bytes, byte by byte. -/
theorem State.frameImage_bytes (s : State) {n : Nat} (hn : n ≤ 250) :
    byteAt (overlay (s.frameImage n) s.txFrame) 0 = 0xAA#8 ∧
      byteAt (overlay (s.frameImage n) s.txFrame) 1 = BitVec.ofNat 8 (4 + n) ∧
      (∀ k, k < 4 → byteAt (overlay (s.frameImage n) s.txFrame) (2 + k) = byteLane s.txTag k) ∧
      ∀ i, i < n → byteAt (overlay (s.frameImage n) s.txFrame) (6 + i) = byteAt s.txStage i := by
  have hlen := s.frameImage_length n hn
  have hbyte : ∀ i, i < 6 + n → byteAt (overlay (s.frameImage n) s.txFrame) i = (s.frameImage n).getD i 0#8 := fun i hi => by
    rw [byteAt_overlay _ _ _ (by omega), if_pos (by omega)]
  refine ⟨hbyte 0 (by omega), hbyte 1 (by omega), fun k hk => ?_, fun i hi => ?_⟩
  · rw [hbyte _ (by omega)]
    interval_cases k <;> rfl
  · rw [hbyte _ (by omega), Nat.add_comm, ← firstBytes_getD s.txStage n i hi]
    rfl

/-- Settles O47, from the bytes of the frame image. -/
theorem txsendBuildsFrame : Obligations.TxsendBuildsFrame := by
  rintro s v n hbusy rfl hn
  have hlen := s.frameImage_length _ hn
  obtain ⟨hsync, hlength, htag, hparams⟩ := s.frameImage_bytes hn
  refine ⟨_, exec_txsend_of_free hbusy hn, rfl, hsync, ?_, htag, hparams, fun i hi => byteAt_overlay_of_ge _ _ _ (by omega), ?_⟩
  · rw [hlength, BitVec.toNat_ofNat]
    omega
  · rw [← s.frameImage_eq_frameOf hn, ← hlen]
    exact firstBytes_overlay _ _ (by omega)

/-! ### The encoded preset -/

/-- The first eight bytes of an encoded preset stand at offsets 0 to 7 (30_encoding.md R82). -/
theorem presetByte_encodePreset_header (f : PresetFields) :
    presetByte (encodePreset f) 0 = Config.presetMagic0 ∧ presetByte (encodePreset f) 1 = Config.presetMagic1 ∧
      presetByte (encodePreset f) 2 = Config.presetVersion ∧
      presetByte (encodePreset f) 7 = BitVec.ofNat 8 Config.presetNumEffects :=
  ⟨rfl, rfl, rfl, rfl⟩

/-- A preset of 17 effects is its 295 bytes and its checksum. -/
theorem encodePreset_split {f : PresetFields} (hf : f.effects.length = 17) :
    (encodePreset f).length = 297 ∧ presetBody (encodePreset f) = encodeBody f ∧
      presetStored (encodePreset f) = crc16 (encodeBody f) := by
  have hbody := encodeBody_length f hf
  have hlen : (encodePreset f).length = 297 := by
    rw [encodePreset, List.length_append, hbody]
    rfl
  refine ⟨hlen, List.take_left' hbody, ?_⟩
  rw [presetStored_eq_iff hlen]
  exact List.drop_left' hbody

/-- Settles O55: every check of the preset passes. -/
theorem encodedPresetPassesCheck : Obligations.EncodedPresetPassesCheck := by
  intro f hf
  simp only [PresetFields.wf, Bool.and_eq_true, beq_iff_eq] at hf
  obtain ⟨⟨-, hcount⟩, -⟩ := hf
  obtain ⟨hlen, hbody, hstored⟩ := encodePreset_split hcount
  obtain ⟨hmagic0, hmagic1, hversion, hnum⟩ := presetByte_encodePreset_header f
  refine ⟨hlen, ?_⟩
  rw [presetCheck, if_neg (show ¬ (encodePreset f).length ≠ Config.presetSize from not_not.2 hlen),
    if_neg (by simp [hmagic0, hmagic1]), if_neg (by rw [hnum]; decide),
    if_neg (by rw [hbody, hstored]; exact not_not.2 rfl), presetWarn, hversion]
  rfl

/-! ### A frame received byte by byte -/

/-- What the hand-over of a payload reads and writes: the hand-off slot, the event record and the tables (40_rx_framer.md R106). -/
structure Slot where
  rdy : Bool
  rdyLen : BitVec 8
  rdyBuf : Vector Byte 255
  cnt : Counters
  lastErr : BitVec 4
  tables : Config.Tables

/-- The slot of a state. -/
def State.slot (s : State) : Slot := ⟨s.rdy, s.rdyLen, s.rdyBuf, s.cnt, s.lastErr, s.tables⟩

/-- The hand-over acts on the slot alone. -/
theorem State.complete_slot {s u : State} (h : u.slot = s.slot) {p : List Byte} (hp : p.length ≤ 255) :
    (u.complete p).slot = (s.complete p).slot := by
  simp only [State.slot, Slot.mk.injEq] at h
  obtain ⟨hrdy, hlen, hbuf, hcnt, herr, htables⟩ := h
  cases hr : s.rdy with
  | true =>
    rw [State.complete_of_ready s p hr, State.complete_of_ready u p (hrdy.trans hr)]
    simp [State.slot, State.raise, hrdy, hlen, hbuf, hcnt, htables]
  | false =>
    rw [State.complete_of_free s p hp hr, State.complete_of_free u p hp (hrdy.trans hr), htables]
    split <;> simp [State.slot, State.raise, hbuf, hcnt, herr, htables]

/-- The receiver on its way through the frame of `p`, from the state `s` on: the bytes still to come, and what `u` holds of the
earlier ones. Only the last byte touches the slot. -/
inductive Hears (s : State) (p : List Byte) : List Byte → State → Prop
  | sync {u : State} (hst : u.rxState = .waitSync) (hslot : u.slot = s.slot) : Hears s p (0xAA#8 :: BitVec.ofNat 8 p.length :: p) u
  | length {u : State} (hst : u.rxState = .waitLen) (hslot : u.slot = s.slot) : Hears s p (BitVec.ofNat 8 p.length :: p) u
  | payload {u : State} (q r : List Byte) (hp : q ++ r = p) (hr : r ≠ []) (hst : u.rxState = .waitPayload)
      (hlen : u.rxLen.toNat = p.length) (hcnt : u.rxCnt.toNat = q.length) (hasm : firstBytes u.asmBuf q.length = q)
      (hslot : u.slot = s.slot) : Hears s p r u
  | done {u : State} (hst : u.rxState = .waitSync) (hslot : u.slot = (s.complete p).slot) : Hears s p [] u

/-- A hunting receiver has the whole frame to come. -/
theorem Hears.start {s u : State} (p : List Byte) (hst : u.rxState = .waitSync) (hslot : u.slot = s.slot) :
    Hears s p (frameOf p) u :=
  .sync hst hslot

/-- Where the receiver stands is decided by its own elements. -/
theorem Hears.of_eq {s u v : State} {p r : List Byte} (h : Hears s p r u) (hst : v.rxState = u.rxState) (hlen : v.rxLen = u.rxLen)
    (hcnt : v.rxCnt = u.rxCnt) (hasm : v.asmBuf = u.asmBuf) (hslot : v.slot = u.slot) : Hears s p r v := by
  cases h with
  | sync hst' hslot' => exact .sync (hst.trans hst') (hslot.trans hslot')
  | length hst' hslot' => exact .length (hst.trans hst') (hslot.trans hslot')
  | payload q r hp hr hst' hlen' hcnt' hasm' hslot' =>
    exact .payload q r hp hr (hst.trans hst') (by rw [hlen, hlen']) (by rw [hcnt, hcnt']) (by rw [hasm, hasm']) (hslot.trans hslot')
  | done hst' hslot' => exact .done (hst.trans hst') (hslot.trans hslot')

/-- The next byte of the frame takes the receiver one byte on. -/
theorem Hears.byte {s u : State} {p r : List Byte} {b : Byte} (h : Hears s p (b :: r) u) (hne : p ≠ []) (hp : p.length ≤ 255) :
    Hears s p r (u.afterByte b) := by
  have hpos := List.length_pos_iff.2 hne
  have hlenByte : (BitVec.ofNat 8 p.length).toNat = p.length := by rw [BitVec.toNat_ofNat]; omega
  cases h with
  | sync hst hslot =>
    rw [State.afterByte_sync u hst]
    exact .length rfl hslot
  | length hst hslot =>
    have hzero : BitVec.ofNat 8 p.length ≠ 0#8 := fun h0 => by rw [h0] at hlenByte; simp at hlenByte; omega
    rw [State.afterByte_len u _ hst hzero]
    exact .payload [] p rfl hne rfl hlenByte rfl rfl hslot
  | payload q r hq hr hst hlen hcnt hasm hslot =>
    have hsum : q.length + (r.length + 1) = p.length := by rw [← hq, List.length_append, List.length_cons]
    have hnext : firstBytes u.asmBuf q.length ++ [b] ++ r = p := by rw [hasm, ← hq, List.append_assoc]; rfl
    cases r with
    | nil =>
      rw [List.append_nil] at hnext
      rw [List.length_nil] at hsum
      rw [State.afterByte_last u b hst (by omega), hcnt, hnext]
      exact .done (State.complete_rx _ _).1 (State.complete_slot (u := u.storePayloadByte b) hslot hp)
    | cons c r =>
      rw [List.length_cons] at hsum
      rw [State.afterByte_store u b hst (by omega)]
      refine .payload (q ++ [b]) (c :: r) (by rw [← hasm]; exact hnext) nofun hst hlen ?_ ?_ hslot
      · rw [State.storePayloadByte_rxCnt, BitVec.toNat_add_of_lt (by rw [BitVec.toNat_ofNat]; omega), hcnt, List.length_append]
        rfl
      · rw [State.storePayloadByte_asmBuf, hcnt, List.length_append, List.length_singleton,
          firstBytes_set_succ _ _ _ (by omega), hasm]

/-- After the whole frame the framer hunts and the payload has been handed over. -/
theorem Hears.finished {s u : State} {p : List Byte} (h : Hears s p [] u) :
    u.rxState = .waitSync ∧ u.slot = (s.complete p).slot := by
  cases h with
  | payload q r hq hr => exact absurd rfl hr
  | done hst hslot => exact ⟨hst, hslot⟩

/-- A received byte leaves the transmit slot and the waiting events alone. -/
theorem State.afterByte_tx (s : State) (b : Byte) :
    (s.afterByte b).inbox = s.inbox ∧ (s.afterByte b).txBusy = s.txBusy ∧ (s.afterByte b).txFrame = s.txFrame ∧
      (s.afterByte b).txTotal = s.txTotal ∧ (s.afterByte b).txIdx = s.txIdx := by
  rcases s.afterByte_cases b with ⟨-, ⟨-, h⟩ | ⟨-, h⟩⟩ | ⟨-, ⟨-, h⟩ | ⟨-, h⟩⟩ |
    ⟨-, ⟨-, h⟩ | ⟨-, ⟨-, h⟩ | ⟨-, -, h⟩ | ⟨-, -, h⟩⟩⟩ <;> rw [h] <;> exact ⟨rfl, rfl, rfl, rfl, rfl⟩

/-- A run over the rest of a frame's bytes. -/
theorem run_hears {s u : State} {p r : List Byte} {rest : List Event} (h : Hears s p r u) (hne : p ≠ []) (hp : p.length ≤ 255)
    (hin : u.inbox = r.map Event.rxb ++ rest) :
    ∃ t, runSteps r.length u = .next t ∧ t.inbox = rest ∧ Hears s p [] t := by
  induction r generalizing u with
  | nil => exact ⟨u, rfl, hin, h⟩
  | cons b r ih =>
    have htake : Hears s p (b :: r) (u.take (r.map Event.rxb ++ rest)) := h.of_eq rfl rfl rfl rfl rfl
    obtain ⟨hinbox, -, -, -, -⟩ := (u.take (r.map Event.rxb ++ rest)).afterByte_tx b
    obtain ⟨t, hrun, ht⟩ := ih (htake.byte hne hp) hinbox
    exact ⟨t, (run_event r.length hin (.inl nofun)).trans hrun, ht⟩

/-- A run over a whole frame hands its payload over. -/
theorem run_frame {s : State} {p : List Byte} {rest : List Event} (hne : p ≠ []) (hp : p.length ≤ 255)
    (hst : s.rxState = .waitSync) (hin : s.inbox = (frameOf p).map Event.rxb ++ rest) :
    ∃ t, runSteps (2 + p.length) s = .next t ∧ t.inbox = rest ∧ t.rxState = .waitSync ∧ t.slot = (s.complete p).slot := by
  obtain ⟨t, hrun, hinbox, hears⟩ := run_hears (.start p hst rfl) hne hp hin
  rw [Nat.add_comm]
  exact ⟨t, hrun, hinbox, hears.finished⟩

/-- The slot decides the ready payload. -/
theorem State.readyPayload_of_slot {s u : State} (h : u.slot = s.slot) : u.readyPayload = s.readyPayload :=
  congrArg (fun k : Slot => firstBytes k.rdyBuf k.rdyLen.toNat) h

/-- What a hand-over with the slot free leaves in the slot. -/
theorem State.complete_free_slot {s u : State} {p : List Byte} (hp : p.length ≤ 255) (hr : s.rdy = false)
    (h : u.slot = (s.complete p).slot) :
    u.rdy = true ∧ u.rdyLen.toNat = p.length ∧ u.readyPayload = p ∧ u.cnt.pkt = s.cnt.pkt + 1#16 ∧
      u.cnt.rxDrop = s.cnt.rxDrop ∧
      u.cnt.tagMiss = if (demux s.tables p).hit = true then s.cnt.tagMiss else s.cnt.tagMiss + 1#16 := by
  have hcnt : u.cnt = (s.complete p).cnt := congrArg Slot.cnt h
  have hlen : u.rdyLen = (s.complete p).rdyLen := congrArg Slot.rdyLen h
  have hrdy : u.rdy = (s.complete p).rdy := congrArg Slot.rdy h
  have hlenByte : (BitVec.ofNat 8 p.length).toNat = p.length := by rw [BitVec.toNat_ofNat]; omega
  have hpayload := State.readyPayload_install s p hp
  rw [hcnt, hlen, hrdy, State.readyPayload_of_slot h, State.complete_of_free s p hp hr]
  split <;> exact ⟨rfl, hlenByte, hpayload, rfl, rfl, rfl⟩

/-- Settles O29: the run hands the payload over with the slot free. -/
theorem frameBytesInstallTheirPayload : Obligations.FrameBytesInstallTheirPayload := by
  intro s p rest hne hp hst hr hin
  obtain ⟨t, hrun, hinbox, hst', hslot⟩ := run_frame hne hp hst hin
  obtain ⟨hrdy, hlen, hpayload, hpkt, -, hmiss⟩ := State.complete_free_slot hp hr hslot
  exact ⟨t, hrun, hinbox, hrdy, hlen, hpayload, hst', hpkt, hmiss⟩

/-- Settles O30: the run hands the payload over while a packet is ready. -/
theorem frameBytesWhileReadyAreDropped : Obligations.FrameBytesWhileReadyAreDropped := by
  intro s p rest hne hp hst hr hin
  obtain ⟨t, hrun, hinbox, hst', hslot⟩ := run_frame hne hp hst hin
  rw [State.complete_of_ready s p hr] at hslot
  exact ⟨t, hrun, hinbox, (congrArg Slot.rdy hslot).trans hr,
    State.readyPayload_of_slot (s := (s.raise .rxDrop).gotoSync) hslot, hst', congrArg Slot.cnt hslot,
    congrArg Slot.lastErr hslot⟩

/-! ### A frame looped back -/

/-- The frame in flight has the bytes `r` left to send. -/
structure State.Sends (u : State) (r : List Byte) : Prop where
  tx : u.TxOk
  bytes : (firstBytes u.txFrame u.txTotal.toNat).drop u.txIdx.toNat = r

section
variable {u : State} {r : List Byte} {b : Byte}

/-- The bytes left are counted by tx_idx and tx_total (10_state.md R37). -/
theorem State.Sends.length_eq (h : u.Sends r) : r.length = u.txTotal.toNat - u.txIdx.toNat := by
  obtain ⟨-, hle, -, -⟩ := h.tx
  rw [← h.bytes, List.length_drop, firstBytes_length, Nat.min_eq_left hle]

/-- With no byte left the slot is free (41_tx_framer.md R145). -/
theorem State.Sends.free (h : u.Sends []) : u.txBusy = false := by
  have hlen := h.length_eq
  rw [List.length_nil] at hlen
  rw [h.tx.busy_eq, decide_eq_false_iff_not]
  omega

theorem State.Sends.idx_lt (h : u.Sends (b :: r)) : u.txIdx.toNat < u.txTotal.toNat := by
  have hlen := h.length_eq
  rw [List.length_cons] at hlen
  omega

theorem State.Sends.busy (h : u.Sends (b :: r)) : u.txBusy = true := by
  rw [h.tx.busy_eq, decide_eq_true_iff]
  exact h.idx_lt

/-- The byte handed out is the first one left. -/
theorem State.Sends.txByte_eq (h : u.Sends (b :: r)) : u.txByte = b := by
  have hlt := h.idx_lt
  obtain ⟨-, hle, -, -⟩ := h.tx
  have hhead : (firstBytes u.txFrame u.txTotal.toNat)[u.txIdx.toNat]? = some b := by rw [← List.head?_drop, h.bytes]; rfl
  rw [State.txByte_eq u (by omega), ← firstBytes_getD u.txFrame _ _ hlt, List.getD_eq_getElem?_getD, hhead]
  rfl

/-- Taking a byte leaves the later ones. -/
theorem State.Sends.popByte (h : u.Sends (b :: r)) : u.popByte.Sends r := by
  refine ⟨State.popByte_txOk h.tx h.busy, ?_⟩
  rw [State.popByte_txIdx_toNat h.idx_lt, State.popByte_txFrame, State.popByte_txTotal, ← List.tail_drop, h.bytes]
  rfl

/-- A received byte does not touch the frame in flight. -/
theorem State.Sends.afterByte (h : u.Sends r) (c : Byte) : (u.afterByte c).Sends r := by
  obtain ⟨-, hbusy, hframe, htotal, hidx⟩ := u.afterByte_tx c
  refine ⟨h.tx.of_eq hbusy hframe htotal hidx, ?_⟩
  rw [hframe, htotal, hidx]
  exact h.bytes

end

/-- One byte looped back: taken from the frame in flight and received at once. -/
def State.echo (u : State) : State := { u.popByte with inbox := [], out := .silent }.afterByte u.txByte

/-- The two steps of one byte of a loopback. -/
theorem loopback_succ_of {u v w : State} {b : Byte} (k : Nat) (hpop : step { u with inbox := [.txpop] } = .next v)
    (hout : v.out = .txByte b) (hbyte : step { v with inbox := [.rxb b] } = .next w) : loopback (k + 1) u = loopback k w := by
  rw [hout] at hbyte
  simp only [loopback, hpop, hout, hbyte]

/-- A loopback of `k + 1` bytes echoes one byte and loops `k` more. -/
theorem loopback_succ {u : State} (k : Nat) (hbusy : u.txBusy = true) : loopback (k + 1) u = loopback k u.echo := by
  refine loopback_succ_of (v := { u.popByte with inbox := [], out := .txByte u.txByte }) k ?_ rfl ?_
  · exact (step_next_iff rfl).2 ⟨by simp [hbusy], rfl⟩
  · exact (step_next_iff rfl).2 ⟨nofun, rfl⟩

/-- A loop over the rest of a frame's bytes. -/
theorem loopback_hears {s u : State} {p r : List Byte} (h : Hears s p r u) (hsends : u.Sends r) (hne : p ≠ [])
    (hp : p.length ≤ 255) :
    ∃ w, loopback r.length u = some w ∧ Hears s p [] w ∧ w.Sends [] := by
  induction r generalizing u with
  | nil => exact ⟨u, rfl, h, hsends⟩
  | cons b r ih =>
    have hpopped : Hears s p (b :: r) { u.popByte with inbox := [], out := .silent } := h.of_eq rfl rfl rfl rfl rfl
    have hecho : u.echo = { u.popByte with inbox := [], out := .silent }.afterByte b := by rw [State.echo, hsends.txByte_eq]
    have hleft : { u.popByte with inbox := [], out := .silent }.Sends r := ⟨hsends.popByte.tx, hsends.popByte.bytes⟩
    rw [List.length_cons, loopback_succ _ hsends.busy, hecho]
    exact ih (hpopped.byte hne hp) (hleft.afterByte b)

/-- An accepted send has the whole frame left to send. -/
theorem State.sends_of_accepted {s t : State} {n : Nat} (hn : n ≤ 250) (hframe : t.txFrame = overlay (s.frameImage n) s.txFrame)
    (htotal : t.txTotal = BitVec.ofNat 9 (6 + n)) (hidx : t.txIdx = 0#9) (hbusy : t.txBusy = true) : t.Sends (s.frameImage n) := by
  have hlen := s.frameImage_length n hn
  have htotal' : t.txTotal.toNat = (s.frameImage n).length := by rw [htotal, hlen, BitVec.toNat_ofNat]; omega
  refine ⟨State.txOk_of_accepted hn hframe htotal hidx hbusy, ?_⟩
  rw [hidx, htotal', hframe]
  exact firstBytes_overlay _ _ (by omega)

/-- Settles O50: each byte sent is the next one of the frame the receiver is in. -/
theorem sentFrameIsReceivedIntact : Obligations.SentFrameIsReceivedIntact := by
  rintro s t v n hbusy hst hr rfl hn hexec
  have hlen := s.frameImage_length _ hn
  have hp : (bytesOfWord s.txTag ++ firstBytes s.txStage (v.toNat % 256)).length ≤ 255 := by
    rw [List.length_append, bytesOfWord_length, firstBytes_length]
    omega
  rw [exec_txsend_of_free hbusy hn] at hexec
  injection hexec with ht
  have hsends : t.Sends (s.frameImage (v.toNat % 256)) := by
    rw [← ht]
    exact State.sends_of_accepted (s := s) hn rfl rfl rfl rfl
  rw [s.frameImage_eq_frameOf hn] at hsends hlen
  have hears := Hears.start (s := s) (u := t) (bytesOfWord s.txTag ++ firstBytes s.txStage (v.toNat % 256))
    (by rw [← ht]; exact hst) (by rw [← ht]; rfl)
  obtain ⟨u, hloop, hheard, hsent⟩ := loopback_hears hears hsends nofun hp
  obtain ⟨hst', hslot⟩ := hheard.finished
  obtain ⟨hrdy, -, hpayload, hpkt, hdrop, -⟩ := State.complete_free_slot hp hr hslot
  rw [← hlen]
  exact ⟨u, hloop, hrdy, hpayload, hsent.free, hst', hpkt, hdrop⟩

end Sys2Proof.Machine

/-! PROOFS. The statements of 40_rx_framer.md: what each receive event and a tick leave, the ready packet's stability, the framer's
commitment to a length, and the watchdog's run. -/

namespace Sys2Proof.Machine

/-! ### The receive events -/

/-- RXB in WAIT_SYNC, as the meaning of its row (40_rx_framer.md R102). -/
theorem exec_rxbWaitSync {s : State} (hst : s.rxState = .waitSync) (b : Byte) :
    exec (.rxbWaitSync b) s = .next (if b = Config.sync then { s.clearIdle with rxState := .waitLen } else s.clearIdle) :=
  if_pos hst

/-- RXB in WAIT_LEN, as the meaning of its row (40_rx_framer.md R103). -/
theorem exec_rxbWaitLen {s : State} (hst : s.rxState = .waitLen) (b : Byte) :
    exec (.rxbWaitLen b) s =
      .next (if b = 0#8 then (s.clearIdle.raise .badLen).gotoSync
        else { s.clearIdle with rxLen := b, rxCnt := 0#8, rxState := .waitPayload }) :=
  if_pos hst

/-- RXE, as the meaning of its row (40_rx_framer.md R108). -/
theorem exec_rxe (k : LineErr) (s : State) : exec (.rxe k) s = .next (s.clearIdle.raise (.lineError k)).gotoSync := rfl

/-- Storing a payload byte writes idle, one byte of asm_buf and rx_cnt (40_rx_framer.md R104). -/
theorem State.storePayloadByte_eq (s : State) (b : Byte) :
    s.storePayloadByte b =
      { s with idle := 0#32, asmBuf := s.asmBuf.setIfInBounds s.rxCnt.toNat b, rxCnt := s.rxCnt + 1#8 } := rfl

/-- A hand-over with the slot free, as one record update (40_rx_framer.md R106). -/
theorem State.complete_of_free_eq {s : State} {p : List Byte} (hp : p.length ≤ 255) (hr : s.rdy = false) :
    s.complete p = { s with
      rdyBuf := overlay p s.rdyBuf, rdyLen := BitVec.ofNat 8 p.length, rdy := true
      rxState := .waitSync, rxLen := 0#8, rxCnt := 0#8
      cnt := if (demux s.tables p).hit = true then { s.cnt with pkt := s.cnt.pkt + 1#16 }
        else { s.cnt with pkt := s.cnt.pkt + 1#16, tagMiss := s.cnt.tagMiss + 1#16 }
      lastErr := if (demux s.tables p).hit = true then s.lastErr else 7#4 } := by
  rw [State.complete_of_free s p hp hr]
  split <;> rfl

/-- The payload that its last byte completes has rx_len bytes (40_rx_framer.md R104). -/
theorem State.length_lastPayload {s : State} (hlast : s.rxCnt.toNat + 1 = s.rxLen.toNat) (b : Byte) :
    (firstBytes s.asmBuf s.rxCnt.toNat ++ [b]).length = s.rxLen.toNat := by
  rw [← State.assembled_storePayloadByte s b hlast]
  exact State.assembled_length _

/-- Settles O21: the row is selected in WAIT_SYNC, so its meaning runs. -/
theorem rxbHuntsForSync : Obligations.RxbHuntsForSync := fun _ b hst => exec_rxbWaitSync hst b

/-- Settles O22: the row is selected in WAIT_LEN, so its meaning runs. -/
theorem rxbTakesLength : Obligations.RxbTakesLength := fun _ b hst => exec_rxbWaitLen hst b

/-- Settles O23: a byte before the last is only stored. -/
theorem rxbStoresPayloadByte : Obligations.RxbStoresPayloadByte := fun s b hst hlt =>
  ⟨s.storePayloadByte b, exec_earlierByte s b hst hlt, s.storePayloadByte_eq b, fun i hi => byteAt_setIfInBounds _ _ i b hi⟩

/-- Settles O24: the completed payload is the earlier bytes and this one, and it is handed over with the slot free. -/
theorem rxbLastByteInstallsPacket : Obligations.RxbLastByteInstallsPacket := by
  intro s b hst hlast hr
  have hl := s.rxLen.isLt
  have hlen := State.length_lastPayload hlast b
  have hcomplete := State.complete_of_free_eq (s := s.storePayloadByte b) (p := firstBytes s.asmBuf s.rxCnt.toNat ++ [b])
    (by omega) hr
  refine ⟨_, (exec_lastByte s b hst hlast).trans (congrArg _ hcomplete), ?_, fun i hi => byteAt_setIfInBounds _ _ i b hi,
    fun i hi => ?_, ?_⟩
  · rw [hlen, BitVec.ofNat_toNat, BitVec.setWidth_eq]
    rfl
  · refine (byteAt_overlay _ _ i hi).trans ?_
    rw [hlen]
    split
    · rename_i hi'
      rw [← State.assembled_storePayloadByte s b hlast]
      exact firstBytes_getD (s.storePayloadByte b).asmBuf s.rxLen.toNat i hi'
    · rfl
  · split
    · rename_i hit
      exact ⟨if_pos hit, if_pos hit⟩
    · rename_i hmiss
      exact ⟨if_neg hmiss, if_neg hmiss⟩

/-- Settles O25: the completed payload is handed over while a packet is ready. -/
theorem rxbLastByteDropsWhileReady : Obligations.RxbLastByteDropsWhileReady := fun s b hst hlast hr =>
  ⟨_, (exec_lastByte s b hst hlast).trans (congrArg _ (State.complete_of_ready (s.storePayloadByte b) _ hr)), rfl,
    fun i hi => byteAt_setIfInBounds _ _ i b hi⟩

/-- Settles O26, by the kind of the line error. -/
theorem rxeAbandonsFrame : Obligations.RxeAbandonsFrame := by
  intro s k
  rw [exec_rxe]
  cases k <;> rfl

/-- What a received byte or a line error may write: idle, the framer, the hand-off slot and the event record (40_rx_framer.md
R101). -/
theorem State.after_receive (s : State) {e : Event} (he : (∃ b, e = .rxb b) ∨ ∃ k, e = .rxe k) :
    s.after e = { s with
      idle := 0#32, rxState := (s.after e).rxState, rxLen := (s.after e).rxLen, rxCnt := (s.after e).rxCnt
      asmBuf := (s.after e).asmBuf, rdy := (s.after e).rdy, rdyLen := (s.after e).rdyLen, rdyBuf := (s.after e).rdyBuf
      cnt := (s.after e).cnt, lastErr := (s.after e).lastErr } := by
  obtain ⟨b, rfl⟩ | ⟨k, rfl⟩ := he
  · rw [show s.after (.rxb b) = s.afterByte b from rfl]
    rcases s.afterByte_cases b with ⟨-, ⟨-, h⟩ | ⟨-, h⟩⟩ | ⟨-, ⟨-, h⟩ | ⟨-, h⟩⟩ |
      ⟨-, ⟨-, h⟩ | ⟨-, ⟨-, h⟩ | ⟨-, -, h⟩ | ⟨-, -, h⟩⟩⟩ <;> rw [h] <;> rfl
  · rfl

/-- Settles O16, from what a receive event may write. -/
theorem receiveEventsLeaveOtherUnits : Obligations.ReceiveEventsLeaveOtherUnits := by
  intro s t e rest hin he hstep
  obtain ⟨-, rfl⟩ := (step_next_iff hin).1 hstep
  rw [(s.take rest).after_receive he]
  exact ⟨rfl, rfl, rfl, rfl, rfl, rfl, rfl, rfl, rfl, rfl, rfl⟩

/-! ### The ready packet -/

/-- While a packet is ready no event but HRST writes its length or bytes, and only CONSUME clears the flag (40_rx_framer.md R106,
R110). -/
theorem State.after_ready {s : State} (hr : s.rdy = true) (e : Event) (he : e ≠ .hrst) :
    (s.after e).rdyLen = s.rdyLen ∧ (s.after e).rdyBuf = s.rdyBuf ∧
      ((s.after e).rdy = true ∨ ∃ v, e.writesTo 0x010#10 v) := by
  revert he
  apply State.after_elim s e fun e t =>
    e ≠ .hrst → t.rdyLen = s.rdyLen ∧ t.rdyBuf = s.rdyBuf ∧ (t.rdy = true ∨ ∃ v, e.writesTo 0x010#10 v)
  case consume => exact fun v _ => ⟨rfl, rfl, .inr ⟨v, rfl⟩⟩
  case install | tagMiss => exact fun _ _ _ hfree => absurd (hr.symm.trans hfree) nofun
  case hrst => exact fun h => absurd rfl h
  case txstage =>
    exact fun _ _ _ _ => ⟨State.respond_rdyLen _ _, State.respond_rdyBuf _ _, .inl ((State.respond_rdy _ _).trans hr)⟩
  case sync | noSync | badLen | len | store | drop | lineErr | fire | tick | pop | read | badRead | badWrite | ctrlwr | wdtset |
      softrstCntclr | softrst | cntclr | crcinit | crcfeed | txtag | txDrop | txReject | txAccept | noOp =>
    intros
    exact ⟨rfl, rfl, .inl hr⟩

/-- Settles O11, from what each event does to a ready packet. -/
theorem readyPacketIsStable : Obligations.ReadyPacketIsStable := by
  intro s t e rest hr hin he hstep
  obtain ⟨-, rfl⟩ := (step_next_iff hin).1 hstep
  obtain ⟨hlen, hbuf, hkept⟩ := State.after_ready (s := s.take rest) hr e he
  exact ⟨hlen, hbuf, fun hcleared => hkept.resolve_left (ne_true_of_eq_false hcleared)⟩

/-- CONSUME frees the slot and is acknowledged (40_rx_framer.md R110). -/
theorem State.after_consume (s : State) (v : Word) : s.after (.wr 0x010#10 4 v) = { s with rdy := false }.respond .writeOk := rfl

/-- `s` with its slot freed, no event waiting and nothing answered: where the byte after a CONSUME is executed. -/
def State.freed (s : State) : State := { s with rdy := false, inbox := [], out := .silent }

/-- A cycle with a CONSUME and a received byte frees the slot before the byte is taken (60_exceptions.md R232). -/
theorem run_consumeAndByte {s : State} (hin : s.inbox = []) (b : Byte) (v : Word) :
    runSteps 2 (s.present { host := some (.wr 0x010#10 4 v), rx := some (.byte b) }) = .next (s.freed.afterByte b) := by
  have hpresent : (s.present { host := some (.wr 0x010#10 4 v), rx := some (.byte b) }).inbox = [.wr 0x010#10 4 v, .rxb b] := by
    rw [State.present, hin]
    rfl
  refine (run_event 1 hpresent (.inl nofun)).trans ?_
  rw [State.after_consume]
  exact run_event (e := .rxb b) (rest := []) 0 rfl (.inl nofun)

/-- Settles O60: CONSUME is taken first, so the last byte completes its payload with the slot free. -/
theorem consumeInSameCycleFreesSlot : Obligations.ConsumeInSameCycleFreesSlot := by
  intro s b v hin _ hst hlast
  have hl := s.rxLen.isLt
  have hlen := State.length_lastPayload hlast b
  obtain ⟨hrdy, -, hpayload, hpkt, hdrop, -⟩ :=
    State.complete_free_slot (s := s.freed.storePayloadByte b) (p := firstBytes s.asmBuf s.rxCnt.toNat ++ [b]) (by omega) rfl rfl
  refine ⟨s.freed.afterByte b, run_consumeAndByte hin b v, ?_⟩
  rw [State.afterByte_last s.freed b hst hlast]
  exact ⟨hrdy, hpayload, hdrop, hpkt⟩

/-! ### The length commitment -/

/-- What an event may do to the framer in WAIT_PAYLOAD, with `s` before and `t` after (40_rx_framer.md section 2). -/
inductive PayloadProgress (s : State) (e : Event) (t : State) : Prop
  | counted (b : Byte) (hbyte : e = .rxb b) (hmore : s.rxCnt.toNat + 1 < s.rxLen.toNat) (hst : t.rxState = .waitPayload)
      (hlen : t.rxLen = s.rxLen) (hcnt : t.rxCnt = s.rxCnt + 1#8)
  | waited (hother : ∀ b, e ≠ .rxb b) (hst : t.rxState = .waitPayload) (hlen : t.rxLen = s.rxLen) (hcnt : t.rxCnt = s.rxCnt)
  | left (hst : t.rxState = .waitSync)
      (hcause : (∃ b, e = .rxb b ∧ s.rxCnt.toNat + 1 = s.rxLen.toNat) ∨ (∃ k, e = .rxe k) ∨ e = .hrst ∨
        (e = .tick ∧ s.wdtEn = true ∧ s.wdtTimeout.toNat < t.idle.toNat) ∨ ∃ v, e.writesTo 0x01C#10 v ∧ v.getLsbD 0 = true)

/-- In WAIT_PAYLOAD the length stays until the framer leaves (40_rx_framer.md R104, R108, R113, R121). -/
theorem State.after_payloadProgress {s : State} (hrx : s.RxOk) (hst : s.rxState = .waitPayload) (e : Event) :
    PayloadProgress s e (s.after e) := by
  have hlt := hrx.2 hst
  apply State.after_elim s e fun e t => PayloadProgress s e t
  case sync | noSync | badLen | len => exact fun _ hst' => absurd (hst.symm.trans hst') nofun
  case store =>
    intro b _ hne
    have hnot := mt (lastByte_iff hlt).2 hne
    exact .counted b rfl (by omega) hst rfl rfl
  case drop | install | tagMiss =>
    intro b _ hlast
    intros
    exact .left rfl (.inl ⟨b, rfl, (lastByte_iff hlt).1 hlast⟩)
  case lineErr => exact fun k => .left rfl (.inr (.inl ⟨k, rfl⟩))
  case fire => exact fun hen _ hlate => .left rfl (.inr (.inr (.inr (.inl ⟨rfl, hen, hlate⟩))))
  case softrst | softrstCntclr => exact fun v hbit _ => .left rfl (.inr (.inr (.inr (.inr ⟨v, rfl, hbit⟩))))
  case hrst => exact .left rfl (.inr (.inr (.inl rfl)))
  case txstage =>
    exact fun _ _ _ => .waited nofun ((State.respond_rxState _ _).trans hst) (State.respond_rxLen _ _) (State.respond_rxCnt _ _)
  case tick | pop | read | badRead | badWrite | ctrlwr | consume | wdtset | cntclr | crcinit | crcfeed | txtag | txDrop | txReject |
      txAccept | noOp =>
    intros
    exact .waited nofun hst rfl rfl

/-- Settles O19, from what each event does to the framer in WAIT_PAYLOAD. -/
theorem framerCommitsToLength : Obligations.FramerCommitsToLength := by
  rintro s t e rest ⟨hrx, -⟩ hst hin hstep
  obtain ⟨-, rfl⟩ := (step_next_iff hin).1 hstep
  cases State.after_payloadProgress (s := s.take rest) hrx hst e with
  | counted b hbyte hmore hst' hlen hcnt => exact .inl ⟨hst', hlen, .inl ⟨b, hbyte, hcnt, hmore⟩⟩
  | waited hother hst' hlen hcnt => exact .inl ⟨hst', hlen, .inr ⟨hother, hcnt⟩⟩
  | left hst' hcause => exact .inr ⟨hst', hcause⟩

/-! ### The watchdog -/

/-- TICK, with the threshold compared as numbers (40_rx_framer.md R120, R121). -/
theorem State.after_tick (s : State) :
    s.after .tick =
      if s.wdtEn = true ∧ s.rxState ≠ .waitSync ∧ s.wdtTimeout.toNat < (sat32 s.idle).toNat then
        { s with
          idle := sat32 s.idle, cnt := { s.cnt with wdt := s.cnt.wdt + 1#16 }, lastErr := 6#4
          rxState := .waitSync, rxLen := 0#8, rxCnt := 0#8 }
      else { s with idle := sat32 s.idle } :=
  if_congr Iff.rfl rfl rfl

/-- A tick within the threshold is only counted. -/
theorem State.after_tick_of_le {s : State} (h : (sat32 s.idle).toNat ≤ s.wdtTimeout.toNat) :
    s.after .tick = { s with idle := sat32 s.idle } := by
  rw [State.after_tick, if_neg fun ⟨_, _, hlate⟩ => Nat.not_lt.2 h hlate]

/-- A tick past the threshold fires an enabled watchdog outside WAIT_SYNC. -/
theorem State.after_tick_of_lt {s : State} (hen : s.wdtEn = true) (hst : s.rxState ≠ .waitSync)
    (h : s.wdtTimeout.toNat < (sat32 s.idle).toNat) :
    s.after .tick = { s with
      idle := sat32 s.idle, cnt := { s.cnt with wdt := s.cnt.wdt + 1#16 }, lastErr := 6#4
      rxState := .waitSync, rxLen := 0#8, rxCnt := 0#8 } := by
  rw [State.after_tick, if_pos ⟨hen, hst, h⟩]

/-- Settles O27: idle becomes its saturating successor, and the watchdog is checked against that. -/
theorem tickCountsAndChecksWatchdog : Obligations.TickCountsAndChecksWatchdog := fun s =>
  ⟨sat32 s.idle, sat32_toNat s.idle, congrArg Host.Outcome.next s.after_tick⟩

/-- The watchdog after `k` ticks of a run from `s` in which it has not fired; `rest` follows the ticks up to the firing one. -/
structure TicksCounted (s : State) (rest : List Event) (k : Nat) (t : State) : Prop where
  enabled : t.wdtEn = true
  rxState : t.rxState = s.rxState
  timeout : t.wdtTimeout = s.wdtTimeout
  cnt : t.cnt = s.cnt
  idle : t.idle.toNat = k
  inbox : t.inbox = List.replicate (s.wdtTimeout.toNat + 1 - k) Event.tick ++ rest


section
variable {s t : State} {rest : List Event} {k : Nat}

/-- A tick of the run comes next until the threshold is passed. -/
theorem TicksCounted.step_eq (h : TicksCounted s rest k t) (hk : k ≤ s.wdtTimeout.toNat) :
    step t = .next ((t.take (List.replicate (s.wdtTimeout.toNat - k) Event.tick ++ rest)).after .tick) := by
  have hin : t.inbox = .tick :: (List.replicate (s.wdtTimeout.toNat - k) Event.tick ++ rest) := by
    rw [h.inbox, Nat.sub_add_comm hk]
    rfl
  exact (step_next_iff hin).2 ⟨nofun, rfl⟩

/-- Below 0xFFFFFFFF idle counts on without saturating (40_rx_framer.md R120). -/
theorem TicksCounted.sat32_idle (h : TicksCounted s rest k t) (hk : k < 2 ^ 32 - 1) : (sat32 t.idle).toNat = k + 1 := by
  rw [sat32_toNat, h.idle]
  omega

/-- A tick up to the threshold is only counted (40_rx_framer.md R121). -/
theorem TicksCounted.succ (h : TicksCounted s rest k t) (hk : k + 1 ≤ s.wdtTimeout.toNat) :
    ∃ u, step t = .next u ∧ TicksCounted s rest (k + 1) u := by
  have hlt := s.wdtTimeout.isLt
  have hidle := h.sat32_idle (by omega)
  have hquiet : (sat32 t.idle).toNat ≤ t.wdtTimeout.toNat := by rw [h.timeout, hidle]; exact hk
  refine ⟨_, h.step_eq (by omega), ?_⟩
  rw [State.after_tick_of_le (s := t.take _) hquiet]
  refine ⟨h.enabled, h.rxState, h.timeout, h.cnt, hidle, ?_⟩
  rw [Nat.add_sub_add_right]
  rfl

/-- The tick after the threshold fires the watchdog (40_rx_framer.md R121). -/
theorem TicksCounted.fire (h : TicksCounted s rest s.wdtTimeout.toNat t) (hst : s.rxState ≠ .waitSync)
    (hmax : s.wdtTimeout.toNat < 2 ^ 32 - 1) :
    ∃ u, step t = .next u ∧ u.inbox = rest ∧ u.rxState = .waitSync ∧ u.cnt = { s.cnt with wdt := s.cnt.wdt + 1#16 } ∧
      u.lastErr = 6#4 ∧ u.idle.toNat = s.wdtTimeout.toNat + 1 := by
  have hidle := h.sat32_idle hmax
  have hst' : t.rxState ≠ .waitSync := by rw [h.rxState]; exact hst
  have hlate : t.wdtTimeout.toNat < (sat32 t.idle).toNat := by rw [h.timeout, hidle]; exact Nat.lt_succ_self _
  refine ⟨_, h.step_eq le_rfl, ?_⟩
  rw [State.after_tick_of_lt (s := t.take _) h.enabled hst' hlate, ← h.cnt, Nat.sub_self]
  exact ⟨rfl, rfl, rfl, rfl, hidle⟩

/-- Ticks up to the threshold are counted one by one. -/
theorem run_ticksCounted (h : TicksCounted s rest 0 s) (hk : k ≤ s.wdtTimeout.toNat) :
    ∃ t, runSteps k s = .next t ∧ TicksCounted s rest k t := by
  induction k with
  | zero => exact ⟨s, rfl, h⟩
  | succ k ih =>
    obtain ⟨t, hrun, ht⟩ := ih (by omega)
    obtain ⟨u, hstep, hu⟩ := ht.succ hk
    exact ⟨u, (run_add k 1 hrun).trans (run_succ_of 0 hstep), hu⟩

end

/-- Settles O28, by induction on the ticks up to the threshold, and one more tick. -/
theorem watchdogFiresAfterThreshold : Obligations.WatchdogFiresAfterThreshold := by
  intro s rest hen hst hidle hmax hin
  have hmax' : s.wdtTimeout.toNat ≠ 2 ^ 32 - 1 := fun he => hmax (BitVec.eq_of_toNat_eq he)
  have hlt := s.wdtTimeout.isLt
  have hstart : TicksCounted s rest 0 s := ⟨hen, rfl, rfl, rfl, by rw [hidle]; rfl, hin⟩
  refine ⟨fun k hk => ?_, ?_⟩
  · obtain ⟨t, hrun, ht⟩ := run_ticksCounted hstart hk
    exact ⟨t, hrun, ht.rxState, ht.cnt, ht.idle⟩
  · obtain ⟨t, hrun, ht⟩ := run_ticksCounted hstart le_rfl
    obtain ⟨u, hstep, hfired⟩ := ht.fire hst (by omega)
    exact ⟨u, (run_add _ 1 hrun).trans (run_succ_of 0 hstep), hfired⟩

end Sys2Proof.Machine

/-! PROOFS. The statements of 41_tx_framer.md: the one event a step refuses, the frame in flight, and what TXSEND and TXPOP do to it. -/

namespace Sys2Proof.Machine

/-! ### The refused event -/

/-- No frame is in flight and TXPOP is the first event (41_tx_framer.md R146). -/
def State.IdleTxpop (s : State) : Prop := s.inbox.head? = some .txpop ∧ s.txBusy = false

/-- A step refuses TXPOP with no frame in flight and answers a next state otherwise (41_tx_framer.md R146, 60_exceptions.md R222). -/
theorem step_refuses_or_answers (s : State) :
    (s.IdleTxpop ∧ step s = .refused .txpopWithoutFrame) ∨ (¬ s.IdleTxpop ∧ ∃ t, step s = .next t) := by
  cases hin : s.inbox with
  | nil => exact .inr ⟨by simp [State.IdleTxpop, hin], s, step_nil hin⟩
  | cons e rest =>
    have hidle : s.IdleTxpop ↔ e = .txpop ∧ s.txBusy = false := by simp [State.IdleTxpop, hin]
    rw [step_cons hin, stepEvent_eq, State.take_txBusy, hidle]
    by_cases h : e = .txpop ∧ s.txBusy = false
    · exact .inl ⟨h, if_pos h⟩
    · exact .inr ⟨h, _, if_neg h⟩

/-- Settles O8, from the two answers of a step; an RXB row's meaning tests the receive state that selects it. -/
theorem onlyIdleTxpopIsRefused : Obligations.OnlyIdleTxpopIsRefused := by
  refine ⟨fun s => ?_, fun s b => ⟨fun h => if_neg h, fun h => if_neg h, fun h => if_neg h⟩⟩
  obtain ⟨hidle, hstep⟩ | ⟨hother, t, hstep⟩ := step_refuses_or_answers s
  · exact ⟨.inr hstep, fun _ => hidle, fun _ => hstep⟩
  · exact ⟨.inl ⟨t, hstep⟩, fun hrefused => (nomatch hstep.symm.trans hrefused), fun hidle => absurd hidle hother⟩

/-! ### The frame in flight -/

/-- While a frame is in flight no event but HRST writes its image or size: TXSEND then writes only the event record (41_tx_framer.md
R142), and TXPOP moves the index and the flag (R145). -/
theorem State.after_inFlight {s : State} (hbusy : s.txBusy = true) (e : Event) (he : e ≠ .hrst) :
    (s.after e).txFrame = s.txFrame ∧ (s.after e).txTotal = s.txTotal := by
  revert he
  apply State.after_elim s e fun e t => e ≠ .hrst → t.txFrame = s.txFrame ∧ t.txTotal = s.txTotal
  case txAccept => exact fun _ hfree => absurd (hbusy.symm.trans hfree) nofun
  case hrst => exact fun h => absurd rfl h
  case pop => exact fun _ => ⟨State.popByte_txFrame s, State.popByte_txTotal s⟩
  case txstage => exact fun _ _ _ _ => ⟨State.respond_txFrame _ _, State.respond_txTotal _ _⟩
  case sync | noSync | badLen | len | store | drop | install | tagMiss | lineErr | fire | tick | read | badRead | badWrite | ctrlwr |
      consume | wdtset | softrstCntclr | softrst | cntclr | crcinit | crcfeed | txtag | txDrop | txReject | noOp =>
    intros
    exact ⟨rfl, rfl⟩

/-- Settles O20, from what each event does to a frame in flight. -/
theorem frameInFlightIsStable : Obligations.FrameInFlightIsStable := by
  intro s t e rest hbusy hin he hstep
  obtain ⟨-, rfl⟩ := (step_next_iff hin).1 hstep
  exact State.after_inFlight (s := s.take rest) hbusy e he

/-! ### TXSEND and TXPOP -/

/-- TXSEND, as the meaning of its row (41_tx_framer.md R142). -/
theorem exec_txsend (v : Word) (s : State) : exec (.txsend v) s = .next ((s.send v).respond .writeOk) := rfl

/-- Settles O46, by the two outcomes of a send request that is not accepted. -/
theorem txsendDropsOrRejects : Obligations.TxsendDropsOrRejects := by
  refine fun s v => ⟨fun hbusy => ?_, fun hfree hlarge => ?_⟩
  · rw [exec_txsend, State.send_of_busy s v hbusy]
    rfl
  · rw [← sendCount_eq] at hlarge
    rw [exec_txsend, State.send_of_large s v hfree hlarge]
    rfl

/-- TXPOP with a frame in flight, as the meaning of its row (41_tx_framer.md R145). -/
theorem exec_txpop_of_busy {s : State} (hbusy : s.txBusy = true) : exec .txpop s = .next (s.popByte.respond (.txByte s.txByte)) :=
  if_pos hbusy

/-- TXPOP with no frame in flight is refused (41_tx_framer.md R146). -/
theorem exec_txpop_of_idle {s : State} (hidle : s.txBusy = false) : exec .txpop s = .refused .txpopWithoutFrame :=
  if_neg (ne_true_of_eq_false hidle)

/-- After a byte is taken, tx_busy says as numbers whether tx_idx has not yet reached tx_total (41_tx_framer.md R145). -/
theorem State.popByte_txBusy_eq_decide {s : State} (h : s.txIdx.toNat < s.txTotal.toNat) :
    s.popByte.txBusy = decide (s.txIdx.toNat + 1 ≠ s.txTotal.toNat) := by
  rw [State.popByte_txBusy, Bool.eq_iff_iff, bne_iff_ne, decide_eq_true_iff, ne_eq, ← BitVec.toNat_inj, ← State.popByte_txIdx,
    State.popByte_txIdx_toNat h]

/-- Settles O48: the index is inside the frame, so the byte taken is the frame's, and moving on does not wrap. -/
theorem txpopHandsOutNextByte : Obligations.TxpopHandsOutNextByte := by
  refine fun s => ⟨fun hbusy hlt hle => ?_, exec_txpop_of_idle⟩
  rw [exec_txpop_of_busy hbusy, s.txByte_eq (by omega), ← State.popByte_txBusy_eq_decide hlt]
  rfl

end Sys2Proof.Machine

/-! PROOFS. The statements of 42_crc16.md and the checksum's part of 44_preset_check.md: the residue 0 of the CRC, its
sensitivity to a change of one byte, the three CRC operations and a run of feeds. -/

namespace Sys2Proof.Machine

/-! ### The CRC of a message -/

/-- The CRC of one message after another goes on from the CRC of the first. -/
theorem crc16_append (front back : List Byte) : crc16 (front ++ back) = back.foldl crcStep (crc16 front) := List.foldl_append

/-- Feeding a register its own low byte shifts that byte out: the low byte is XORed to 0, so no shift XORs the polynomial in
(42_crc16.md R161). -/
theorem crcStep_lowByte (c : Crc) : crcStep c (c.extractLsb' 0 8) = c >>> 8 := by
  have hlow : ∀ i, i < 8 → (c ^^^ (c.extractLsb' 0 8).zeroExtend 16).getLsbD i = false := fun i hi => by
    simp [hi, show i < 16 by omega]
  rw [crcStep, crcShift_iterate_of_low 8 _ hlow]
  apply BitVec.eq_of_getLsbD_eq
  intro i hi
  simp

/-- Feeding a register its own two bytes, low byte first, clears it. -/
theorem foldl_crcStep_crcBytes (c : Crc) : (crcBytes c).foldl crcStep c = 0#16 := by
  have hhigh : c.extractLsb' 8 8 = (c >>> 8).extractLsb' 0 8 := extract_eq_of_bits fun i hi => by simp [hi]
  calc (crcBytes c).foldl crcStep c
    _ = crcStep (crcStep c (c.extractLsb' 0 8)) (c.extractLsb' 8 8) := rfl
    _ = crcStep (c >>> 8) ((c >>> 8).extractLsb' 0 8) := by rw [crcStep_lowByte, hhigh]
    _ = c >>> 8 >>> 8 := crcStep_lowByte _
    _ = 0#16 := by rw [← BitVec.shiftRight_add]; exact BitVec.ushiftRight_eq_zero le_rfl

/-- Settles O53: the last two steps feed the CRC its own two bytes. -/
theorem crcResidueIsZero : Obligations.CrcResidueIsZero := fun m => by
  rw [crc16_append, foldl_crcStep_crcBytes]

/-- Settles O54: the step tells the two bytes apart, and the bytes that follow keep the registers different. -/
theorem crcDetectsOneByteChange : Obligations.CrcDetectsOneByteChange := by
  intro front back b c hne heq
  rw [crc16_append, crc16_append] at heq
  exact hne (crcStep_inj_right (foldl_crcStep_inj back heq))

/-! ### The checksum of a preset -/

/-- A block that passes is its first 295 bytes and their CRC, so the CRC of all its bytes is 0 (44_preset_check.md R200, R203). -/
theorem crc16_of_presetCheck_ok {p : List Byte} (h : (presetCheck p).verdict = .ok) : p.length = 297 ∧ crc16 p = 0#16 := by
  unfold presetCheck at h
  split_ifs at h with hlen hmagic hcount hcrc
  rw [not_not] at hlen hcrc
  have hstored : p.drop 295 = crcBytes (crc16 (p.take 295)) := (presetStored_eq_iff hlen _).1 hcrc.symm
  refine ⟨hlen, ?_⟩
  rw [← List.take_append_drop 295 p, hstored]
  exact crcResidueIsZero _

/-- Replacing one byte of a message by another changes its CRC. -/
theorem crc16_set_ne {p : List Byte} {i : Nat} {b : Byte} (hi : i < p.length) (hne : p.getD i 0#8 ≠ b) :
    crc16 (p.set i b) ≠ crc16 p := by
  rw [List.getD_eq_getElem _ _ hi] at hne
  have hsplit : p = p.take i ++ p[i] :: p.drop (i + 1) := by rw [List.getElem_cons_drop, List.take_append_drop]
  rw [List.set_eq_take_append_cons_drop, if_pos hi]
  conv_rhs => rw [hsplit]
  exact crcDetectsOneByteChange _ _ _ _ hne.symm

/-- Settles O56: all the bytes of a passing block have the CRC 0, and the changed block has another CRC. -/
theorem changedPresetByteFailsCheck : Obligations.ChangedPresetByteFailsCheck := by
  intro p i b hok hi hne hok'
  obtain ⟨hlen, hcrc⟩ := crc16_of_presetCheck_ok hok
  obtain ⟨-, hcrc'⟩ := crc16_of_presetCheck_ok hok'
  exact crc16_set_ne (hlen ▸ hi) hne (hcrc'.trans hcrc.symm)

/-- The check value, one step per byte of "123456789", with the register after each byte (42_crc16.md R164, 95_test_vectors.md V-C10). -/
theorem crc16_check : crc16 [0x31#8, 0x32#8, 0x33#8, 0x34#8, 0x35#8, 0x36#8, 0x37#8, 0x38#8, 0x39#8] = 0x4B37#16 := by
  have h1 : crcStep Config.crcInit 0x31#8 = 0x947E#16 := by decide
  have h2 : crcStep 0x947E#16 0x32#8 = 0xF595#16 := by decide
  have h3 : crcStep 0xF595#16 0x33#8 = 0x7A75#16 := by decide
  have h4 : crcStep 0x7A75#16 0x34#8 = 0x30BA#16 := by decide
  have h5 : crcStep 0x30BA#16 0x35#8 = 0xA471#16 := by decide
  have h6 : crcStep 0xA471#16 0x36#8 = 0x32E4#16 := by decide
  have h7 : crcStep 0x32E4#16 0x37#8 = 0x9D73#16 := by decide
  have h8 : crcStep 0x9D73#16 0x38#8 = 0x37DD#16 := by decide
  have h9 : crcStep 0x37DD#16 0x39#8 = 0x4B37#16 := by decide
  simp only [crc16, List.foldl_cons, List.foldl_nil, h1, h2, h3, h4, h5, h6, h7, h8, h9]

/-! ### The CRC operations and a run of them -/

/-- CRCINIT is one record update (42_crc16.md R162). -/
theorem exec_crcinit (v : Word) (s : State) :
    exec (.crcinit v) s = .next { s with crc := if v.getLsbD 0 = true then Config.crcInit else s.crc, out := .writeOk } := by
  show Host.Outcome.next ((if v.getLsbD 0 = true then { s with crc := Config.crcInit } else s).respond .writeOk) = _
  split <;> rfl

/-- CRCFEED feeds the low byte of the word (42_crc16.md R163). -/
theorem exec_crcfeed (v : Word) (s : State) :
    exec (.crcfeed v) s = .next { s with crc := crcStep s.crc (v.extractLsb' 0 8), out := .writeOk } := rfl

/-- CRCREAD answers the register's number (42_crc16.md R164). -/
theorem exec_crcread (s : State) : exec .crcread s = .next { s with out := .readData (BitVec.ofNat 32 s.crc.toNat) } := by
  rw [BitVec.ofNat_toNat]
  rfl

/-- Settles O51, from the step's eight shifts and the meanings of the three operations. -/
theorem crcOperationsOnRegister : Obligations.CrcOperationsOnRegister :=
  ⟨fun _ _ => rfl, rfl, fun bytes b => crc16_append bytes [b], crc16_check,
    fun s v => ⟨exec_crcinit v s, exec_crcfeed v s, exec_crcread s⟩⟩

/-- A step on a write to CRC_CTRL with bit 0 set restarts the CRC (42_crc16.md R162). -/
theorem step_crcinit {s : State} {v : Word} {rest : List Event} (hv : v.getLsbD 0 = true) (hin : s.inbox = .wr 0x040#10 4 v :: rest) :
    step s = .next { s with inbox := rest, out := .writeOk, crc := Config.crcInit } := by
  refine (step_next_iff hin).2 ⟨nofun, ?_⟩
  show ((if v.getLsbD 0 = true then { s.take rest with crc := Config.crcInit } else s.take rest).respond .writeOk) = _
  rw [if_pos hv]
  rfl

/-- A step on a write of a zero-extended byte to CRC_DATA feeds the byte (42_crc16.md R163). -/
theorem step_crcfeed {s : State} {b : Byte} {rest : List Event} (hin : s.inbox = .wr 0x044#10 4 (b.zeroExtend 32) :: rest) :
    step s = .next { s with inbox := rest, out := .writeOk, crc := crcStep s.crc b } := by
  have hb : byteLane (b.zeroExtend 32) 0 = b := extract_eq_of_bits fun i hi => by simp [show i < 32 by omega]
  refine (step_next_iff hin).2 ⟨nofun, ?_⟩
  conv_rhs => rw [← hb]
  rfl

/-- A run of one CRCFEED per byte folds the step over the bytes, after a write that was acknowledged. -/
theorem run_crcfeeds {s : State} {bytes : List Byte} {rest : List Event} (hout : s.out = .writeOk)
    (hin : s.inbox = (bytes.map fun b => Event.wr 0x044#10 4 (b.zeroExtend 32)) ++ rest) :
    runSteps bytes.length s = .next { s with inbox := rest, out := .writeOk, crc := bytes.foldl crcStep s.crc } := by
  induction bytes generalizing s with
  | nil =>
    rw [← hout, ← (show s.inbox = rest from hin)]
    rfl
  | cons b bytes ih => exact (run_succ_of _ (step_crcfeed hin)).trans (ih rfl rfl)

/-- Settles O52: the CRC restarts, and the feeds fold the step over the bytes. -/
theorem initThenFeedsComputeCrc16 : Obligations.InitThenFeedsComputeCrc16 := by
  intro s v bytes rest hv hin
  rw [Nat.add_comm]
  exact (run_succ_of _ (step_crcinit hv hin)).trans (run_crcfeeds rfl rfl)

end Sys2Proof.Machine

/-! PROOFS. The statements of 43_tag_demux.md: the three answers of the demultiplexer, and the register that shows them. -/

namespace Sys2Proof.Machine

/-! ### A hit, an alias hit and a miss -/

/-- A payload with a 4-byte tag has the tag's four bytes. -/
theorem four_le_length_of_tag32 {p : List Byte} {w : Word} (h : tag32 p = some w) : 4 ≤ p.length := by
  rw [← tagPayload_of_tag32 h, tagPayload_length]
  omega

/-- The handler of a 4-byte tag is the first index of TAG_TABLE that holds it (43_tag_demux.md R180). -/
theorem tagHandler_of_first {t : Config.Tables} {p : List Byte} {w : Word} {h : Nat} (hw : tag32 p = some w)
    (hentry : t.tagTable[h]? = some w) (hfirst : ∀ j, j < h → t.tagTable[j]? ≠ some w) : tagHandler t p = some h := by
  obtain ⟨hlt, hget⟩ := List.getElem?_eq_some_iff.1 hentry
  rw [tagHandler, hw, Option.bind_some, List.findIdx?_eq_some_iff_getElem]
  refine ⟨hlt, beq_iff_eq.2 hget, fun j hj heq => hfirst j hj ?_⟩
  rw [List.getElem?_eq_getElem (hj.trans hlt), beq_iff_eq.1 heq]

/-- Settles O34: the tag's handler is its first entry, and a payload with a 4-byte tag is not short. -/
theorem demuxTakesFirstFourByteMatch : Obligations.DemuxTakesFirstFourByteMatch := by
  intro t p w h hw hentry hfirst
  have hlong : decide (p.length < 4) = false := decide_eq_false (four_le_length_of_tag32 hw).not_gt
  rw [demux_of_tagHandler (tagHandler_of_first hw hentry hfirst), demuxFound, hlong]
  rfl

/-- Settles O35, from the alias hit after the 4-byte miss. -/
theorem demuxTriesAliasAfterMiss : Obligations.DemuxTriesAliasAfterMiss :=
  fun _ _ _ _ hmiss hreach ha hl => demux_of_alias hmiss hreach ha hl

/-- Settles O36: neither table has a handler for the payload. -/
theorem demuxReportsMissAsHandler31 : Obligations.DemuxReportsMissAsHandler31 :=
  fun _ _ hmiss hnoAlias => demux_of_noHandler (tagHandler_eq_none hmiss) (aliasHandler_eq_none hnoAlias)

/-! ### The DEMUX register -/

/-- The numbers of the ready packet's result fit their fields (10_state.md R46). -/
theorem State.demuxOut_bounds {s : State} (ht : s.tables.wf) :
    s.demuxOut.handler < 32 ∧ s.demuxOut.paramLen < 256 ∧ s.demuxOut.paramOff < 8 := by
  have hlen := s.rdyLen.isLt
  refine demux_bounds ht s.readyPayload ?_
  rw [State.readyPayload, firstBytes_length]
  omega

/-- DEMUX's value, with VALID written as a field like the others. -/
theorem demuxWord_eq (d : DemuxResult) :
    demuxWord d =
      (1#1).zeroExtend 32 <<< 0
        ||| (BitVec.ofBool d.hit).zeroExtend 32 <<< 1
        ||| (BitVec.ofBool d.aliasHit).zeroExtend 32 <<< 2
        ||| (BitVec.ofBool d.tagShort).zeroExtend 32 <<< 3
        ||| (BitVec.ofNat 5 d.handler).zeroExtend 32 <<< 8
        ||| (BitVec.ofNat 8 d.paramLen).zeroExtend 32 <<< 16
        ||| d.lenChk.code.zeroExtend 32 <<< 24
        ||| (BitVec.ofNat 3 d.paramOff).zeroExtend 32 <<< 28 := rfl

/-- DEMUXREAD answers DEMUX (43_tag_demux.md R185). -/
theorem exec_demuxread (s : State) : exec .demuxread s = .next { s with out := .readData s.demuxReg } := rfl

/-- Settles O37: each field of DEMUX is read back where it stands, the other fields leave its bits 0, and the numbers fit. -/
theorem demuxRegisterFields : Obligations.DemuxRegisterFields := by
  intro s
  refine ⟨fun hr => ?masked, fun hr ht => ⟨demuxWord s.demuxOut, ?answer, ?fields⟩⟩
  case masked => rw [exec_demuxread, State.demuxReg, if_neg (ne_true_of_eq_false hr)]
  case answer => rw [exec_demuxread, State.demuxReg, if_pos hr]
  case fields =>
    obtain ⟨hhandler, hlen, hoff⟩ := State.demuxOut_bounds ht
    simp (disch := omega) only [demuxWord_eq, BitVec.extractLsb'_or, extract_field_self, extract_field_beside, BitVec.or_zero,
      BitVec.zero_or, BitVec.toNat_ofNat, Nat.mod_eq_of_lt, true_and, and_true]
    cases s.demuxOut.lenChk <;> rfl

end Sys2Proof.Machine

/-! PROOFS. The statement of 44_preset_check.md about the order of the checks of `preset_check`. -/

namespace Sys2Proof.Machine

/-- A block of another length fails the first check (44_preset_check.md R200). -/
theorem presetCheck_of_length_ne {p : List Byte} (hlen : p.length ≠ 297) : presetCheck p = ⟨.badSize, false⟩ := if_pos hlen

/-- A wrong magic byte fails the second check (44_preset_check.md R200). -/
theorem presetCheck_of_magic_ne {p : List Byte} (hlen : p.length = 297) (hmagic : p.getD 0 0#8 ≠ 0x50#8 ∨ p.getD 1 0#8 ≠ 0x4D#8) :
    presetCheck p = ⟨.badMagic, false⟩ :=
  (if_neg (not_not.2 hlen)).trans (if_pos hmagic)

/-- The count, compared as a number by the check, is the byte 17 (44_preset_check.md R200). -/
theorem presetCount_ne_iff (p : List Byte) : (presetByte p 7).toNat ≠ Config.presetNumEffects ↔ p.getD 7 0#8 ≠ 17#8 :=
  not_congr (BitVec.toNat_inj (y := 17#8))

/-- The checksum of a block of the right length differs when its last two bytes are not the other bytes' CRC (44_preset_check.md R203). -/
theorem presetCrc_ne_stored_iff {p : List Byte} (hlen : p.length = 297) :
    crc16 (presetBody p) ≠ presetStored p ↔ p.drop 295 ≠ crcBytes (crc16 (p.take 295)) :=
  not_congr (eq_comm.trans (presetStored_eq_iff hlen _))

/-- Once the magic has passed, the version decides the warning and the count and the checksum, in this order, the verdict
(44_preset_check.md R200). -/
theorem presetCheck_of_magic {p : List Byte} (hlen : p.length = 297) (h0 : p.getD 0 0#8 = 0x50#8) (h1 : p.getD 1 0#8 = 0x4D#8) :
    presetCheck p =
      ⟨if p.getD 7 0#8 ≠ 17#8 then .badCount else if p.drop 295 ≠ crcBytes (crc16 (p.take 295)) then .badCrc else .ok,
        p.getD 2 0#8 != 0x02#8⟩ := by
  have hmagic : ¬ (presetByte p 0 ≠ Config.presetMagic0 ∨ presetByte p 1 ≠ Config.presetMagic1) :=
    not_or.2 ⟨not_not.2 h0, not_not.2 h1⟩
  rw [presetCheck, if_neg (show ¬ p.length ≠ Config.presetSize from not_not.2 hlen), if_neg hmagic]
  simp only [presetCount_ne_iff, presetCrc_ne_stored_iff hlen]
  split_ifs <;> rfl

/-- Settles O57: the checks after the magic share one warning, and their verdicts are told apart by the count and the checksum. -/
theorem presetChecksRunInOrder : Obligations.PresetChecksRunInOrder := by
  refine fun p => ⟨presetCheck_of_length_ne, presetCheck_of_magic_ne, fun hlen h0 h1 => ?_⟩
  rw [presetCheck_of_magic hlen h0 h1]
  refine ⟨rfl, ?count, fun hcount => ?checksum⟩
  case count => split_ifs with hcount <;> simp only [hcount, ne_eq, not_false_eq_true]
  case checksum =>
    rw [if_neg (not_not.2 hcount)]
    by_cases hcrc : p.drop 295 = crcBytes (crc16 (p.take 295)) <;> simp [hcrc]

end Sys2Proof.Machine

/-! PROOFS. The statements of 60_exceptions.md: the interrupt line, and the order of the events of one cycle. -/

namespace Sys2Proof.Machine

/-! ### The interrupt line -/

/-- What an event may do to irq_en and rdy, the two fields the interrupt is made of (60_exceptions.md R228), with `s` before and `t`
after. -/
inductive InterruptSources (s : State) (e : Event) (t : State) : Prop
  | kept (hen : t.irqEn = s.irqEn) (hrdy : t.rdy = s.rdy)
  | installed (b : Byte) (hbyte : e = .rxb b) (hfree : s.rdy = false) (hen : t.irqEn = s.irqEn) (hrdy : t.rdy = true)
  | consumed (v : Word) (hwrite : e.writesTo 0x010#10 v) (hrdy : t.rdy = false)
  | enableWritten (v : Word) (hwrite : e.writesTo 0x000#10 v) (hen : t.irqEn = v.getLsbD 1) (hrdy : t.rdy = s.rdy)
  | reset (hhrst : e = .hrst) (hrdy : t.rdy = false)

/-- Only CTRLWR and HRST write irq_en, and only an installation, CONSUME and HRST write rdy (10_state.md R41, 40_rx_framer.md R106,
R110). -/
theorem State.after_interruptSources (s : State) (e : Event) : InterruptSources s e (s.after e) := by
  apply State.after_elim s e (InterruptSources s)
  case install | tagMiss => exact fun b _ _ hfree _ => .installed b rfl hfree rfl rfl
  case consume => exact fun v => .consumed v rfl rfl
  case ctrlwr => exact fun v => .enableWritten v rfl rfl rfl
  case hrst => exact .reset rfl rfl
  case txstage => exact fun _ _ _ => .kept (State.respond_irqEn _ _) (State.respond_rdy _ _)
  case sync | noSync | badLen | len | store | drop | lineErr | fire | tick | pop | read | badRead | badWrite | wdtset | softrstCntclr |
      softrst | cntclr | crcinit | crcfeed | txtag | txDrop | txReject | txAccept | noOp =>
    intros
    exact .kept rfl rfl

theorem State.irq_eq_true_iff (s : State) : s.irq = true ↔ s.irqEn = true ∧ s.rdy = true := Bool.and_eq_true_iff

/-- The interrupt rises on an installation with irq_en set, or when irq_en is written 1 over a ready packet (60_exceptions.md R228). -/
theorem InterruptSources.rise {s t : State} {e : Event} (h : InterruptSources s e t) (hlow : s.irq = false) (hhigh : t.irq = true) :
    (s.irqEn = true ∧ s.rdy = false ∧ t.rdy = true ∧ ∃ b, e = .rxb b) ∨
      (s.rdy = true ∧ ∃ v, e.writesTo 0x000#10 v ∧ v.getLsbD 1 = true) := by
  obtain ⟨hten, htrdy⟩ := t.irq_eq_true_iff.1 hhigh
  cases h with
  | kept hen hrdy => exact absurd (s.irq_eq_true_iff.2 ⟨hen.symm.trans hten, hrdy.symm.trans htrdy⟩) (ne_true_of_eq_false hlow)
  | installed b hbyte hfree hen hrdy => exact .inl ⟨hen.symm.trans hten, hfree, hrdy, b, hbyte⟩
  | consumed v hwrite hrdy => exact absurd htrdy (ne_true_of_eq_false hrdy)
  | enableWritten v hwrite hen hrdy => exact .inr ⟨hrdy.symm.trans htrdy, v, hwrite, hen.symm.trans hten⟩
  | reset hhrst hrdy => exact absurd htrdy (ne_true_of_eq_false hrdy)

/-- The interrupt falls on HRST, on CONSUME, and when irq_en is written 0 (60_exceptions.md R228). -/
theorem InterruptSources.fall {s t : State} {e : Event} (h : InterruptSources s e t) (hhigh : s.irq = true) (hlow : t.irq = false) :
    e = .hrst ∨ (∃ v, e.writesTo 0x010#10 v) ∨ ∃ v, e.writesTo 0x000#10 v ∧ v.getLsbD 1 = false := by
  obtain ⟨hsen, hsrdy⟩ := s.irq_eq_true_iff.1 hhigh
  cases h with
  | kept hen hrdy => exact absurd (t.irq_eq_true_iff.2 ⟨hen.trans hsen, hrdy.trans hsrdy⟩) (ne_true_of_eq_false hlow)
  | installed b hbyte hfree hen hrdy => exact absurd hsrdy (ne_true_of_eq_false hfree)
  | consumed v hwrite hrdy => exact .inr (.inl ⟨v, hwrite⟩)
  | enableWritten v hwrite hen hrdy =>
    have hbit : v.getLsbD 1 = false := by rwa [State.irq, hen, hrdy, hsrdy, Bool.and_true] at hlow
    exact .inr (.inr ⟨v, hwrite, hbit⟩)
  | reset hhrst hrdy => exact .inl hhrst

/-- Settles O18, from what each event does to irq_en and rdy. -/
theorem interruptFollowsEnableAndReady : Obligations.InterruptFollowsEnableAndReady := by
  intro s t e rest hin hstep
  obtain ⟨-, rfl⟩ := (step_next_iff hin).1 hstep
  have hsources := (s.take rest).after_interruptSources e
  exact ⟨hsources.rise, hsources.fall⟩

/-! ### The events of a cycle -/

@[simp] theorem HostAccess.cycleRank_event (a : HostAccess) : a.event.cycleRank = 1 := by cases a <;> rfl

@[simp] theorem RxEvent.cycleRank_event (r : RxEvent) : r.event.cycleRank = 2 := by cases r <;> rfl

@[simp] theorem cycleRank_txpop : Event.txpop.cycleRank = 3 := rfl

@[simp] theorem cycleRank_tick : Event.tick.cycleRank = 4 := rfl

theorem Cycle.events_of_hrst {c : Cycle} (h : c.hrst = true) : c.events = [.hrst] := if_pos h

/-- Without HRST a cycle's events are its agents' parts, in the order of 60_exceptions.md R232. -/
theorem Cycle.events_of_noHrst {c : Cycle} (h : c.hrst = false) :
    c.events = (c.host.map HostAccess.event).toList ++ (c.rx.map RxEvent.event).toList
      ++ (if c.txpop then [.txpop] else []) ++ (if c.tick then [.tick] else []) :=
  if_neg (ne_true_of_eq_false h)

/-- Without HRST exactly the presented events take effect (60_exceptions.md R232). -/
theorem Cycle.mem_events_iff {c : Cycle} (h : c.hrst = false) (e : Event) :
    e ∈ c.events ↔
      (∃ a, c.host = some a ∧ e = a.event) ∨ (∃ r, c.rx = some r ∧ e = r.event) ∨ (c.txpop = true ∧ e = .txpop) ∨
        (c.tick = true ∧ e = .tick) := by
  simp [Cycle.events_of_noHrst h, eq_comm (b := e)]

/-! An agent presents at most one event in a cycle, so its part has no two to compare. -/

theorem pairwise_toList {α : Type*} (R : α → α → Prop) (o : Option α) : o.toList.Pairwise R := by cases o <;> simp

theorem pairwise_ite_singleton {α : Type*} (R : α → α → Prop) (b : Bool) (x : α) : (if b then [x] else []).Pairwise R := by
  cases b <;> simp

/-- Without HRST each event comes before every one of a later kind: two events of a cycle are of two agents (60_exceptions.md R232). -/
theorem Cycle.events_pairwise {c : Cycle} (h : c.hrst = false) : c.events.Pairwise fun a b => a.cycleRank < b.cycleRank := by
  rw [Cycle.events_of_noHrst h]
  refine List.pairwise_append.2 ⟨List.pairwise_append.2 ⟨List.pairwise_append.2 ⟨pairwise_toList _ _, pairwise_toList _ _, ?hostRx⟩,
    pairwise_ite_singleton _ _ _, ?beforePop⟩, pairwise_ite_singleton _ _ _, ?beforeTick⟩
  case hostRx => simp
  case beforePop => simp [or_imp, forall_and]
  case beforeTick => simp [or_imp, forall_and]

/-- Settles O59, by whether HRST is among the cycle's events. -/
theorem cycleEventsAreOrdered : Obligations.CycleEventsAreOrdered := fun _ =>
  ⟨Cycle.events_of_hrst, fun h => ⟨Cycle.mem_events_iff h, Cycle.events_pairwise h⟩⟩

end Sys2Proof.Machine

/-! PROOFS. The statements of 70_reset_and_hazards.md: the reset state is a good one, and hardware reset restores every element. -/

namespace Sys2Proof.Machine

/-! ### The reset state -/

/-- A slot that never held a frame, as reset leaves it (10_state.md R37). -/
theorem State.txOk_of_noFrame {s : State} (hbusy : s.txBusy = false) (htotal : s.txTotal = 0#9) (hidx : s.txIdx = 0#9) : s.TxOk := by
  have htotal' : s.txTotal.toNat = 0 := by rw [htotal]; rfl
  have hidx' : s.txIdx.toNat = 0 := by rw [hidx]; rfl
  exact ⟨by omega, by omega, by simp [hbusy, htotal'], fun hpos => absurd htotal' hpos.ne'⟩

/-- The default tables are ones an instance may have (00_scope.md R7, 30_encoding.md R79, R80). -/
theorem defaultTables_wf : Config.tables.wf := by decide

/-- Settles O10, part of the invariant by part. -/
theorem resetStateMeetsInv : Obligations.ResetStateMeetsInv :=
  ⟨⟨fun _ => ⟨rfl, rfl⟩, nofun⟩, nofun, State.txOk_of_noFrame rfl rfl rfl, Nat.zero_le 10, defaultTables_wf⟩

/-! ### Hardware reset -/

theorem exec_hrst (s : State) : exec .hrst s = .next s.hardReset := rfl

/-- Every staged byte is 0 after HRST (10_state.md R36, 70_reset_and_hazards.md R260). -/
theorem State.byteAt_hardReset_txStage (s : State) {i : Nat} (hi : i < 250) : byteAt s.hardReset.txStage i = 0#8 := by
  rw [State.hardReset_txStage, byteAt_of_lt _ _ hi, Vector.getElem_replicate]

@[simp] theorem State.hardReset_statusReg (s : State) : s.hardReset.statusReg = 0#32 := by
  simp [State.statusReg, State.irq, rxStateCode]

@[simp] theorem State.hardReset_demuxReg (s : State) : s.hardReset.demuxReg = 0x00001F00#32 := rfl

@[simp] theorem State.hardReset_crcReg (s : State) : s.hardReset.crcReg = 0x0000FFFF#32 := rfl

/-- Settles O58: HRST's next state is `State.hardReset`, element by element the reset value. -/
theorem hardResetRestoresEveryElement : Obligations.HardResetRestoresEveryElement := fun s =>
  ⟨s.hardReset, exec_hrst s, rfl, fun _ => s.byteAt_hardReset_txStage, s.hardReset_statusReg, s.hardReset_demuxReg, s.hardReset_crcReg,
    rfl⟩

end Sys2Proof.Machine
